-- ==== Sys2Proof/Word.lean ====
section
/-! DEFINITION. The integer types of the engine (00_scope.md R11). All values are unsigned. -/

namespace Sys2Proof

/-- `u8` (R11). -/
abbrev Byte := BitVec 8

/-- `u32` (R11). -/
abbrev Half := BitVec 32

/-- `u64` (R11). -/
abbrev Word := BitVec 64

/-- `u128` (R11). -/
abbrev Wide := BitVec 128

end Sys2Proof
end

