-- ==== Sys2Proof/Config.lean ====
section
/-! DEFINITION. The parameters that the spec leaves open (00_scope.md R7; 92_eei_decisions.md D6, D11, D12) and the free
values. -/

namespace Sys2Proof

/-- What `modpow` does with modulus 0 (40_arith.md R131 (a), D11). -/
inductive ModpowZeroPolicy where
  /-- The spec's default: the value is 0. -/
  | zero
  /-- Any other policy: a value that nothing is known of (`Config.modpowZeroOther`). -/
  | other
deriving DecidableEq, Repr

/-- The named arguments of the model (R7): an engine has one value of each, which no operation changes. -/
structure EngineParams where
  /-- `IN_CAP`, the capacity of the input buffer in bytes, at least 200 (D6). -/
  inCap : Nat
  /-- `MODPOW_ZERO_POLICY` (D11). -/
  modpowZero : ModpowZeroPolicy
  /-- `MODPOW_MOD1_EXP0`, the value of `modpow(_, 0, 1)` (D12). -/
  modpowMod1Exp0 : Word
deriving DecidableEq, Repr

/-- The defaults that the spec states (D6, D11, D12); DESIGN CHOICE for the engine after reset (log 3, log 4). -/
def EngineParams.defaults : EngineParams where
  inCap := 4096
  modpowZero := .zero
  modpowMod1Exp0 := 1

/-- The value of `modpow(base, exp, 0)` under a policy that is not the default (log 4). Nothing is known of it. -/
opaque Config.modpowZeroOther : Word → Word → Word

/-- The free values (log 5): what a refused read (60_exceptions.md R336), a digest read outside `DONE` (R337) and a read
outside the register window (U19) return. Nothing is known of it; a narrower read takes its low bits. -/
opaque Config.freeWord : Nat → Word

end Sys2Proof
end

