-- ==== Sys2Proof/Machine/Arith.lean ====
section
/-! DEFINITION. The integer arithmetic laws and helper functions of 40_arith.md. The operators `+`, `-`, `*` on `Word`
and `Half` are those of `BitVec`, modulo the width (R115, R116). -/

namespace Sys2Proof.Machine

/-- Left rotate by `n mod 64` (R117). -/
def rotl (x : Word) (n : Nat) : Word := x.rotateLeft (n % 64)

/-- Right rotate by `n mod 64` (R117). -/
def rotr (x : Word) (n : Nat) : Word := x.rotateRight (n % 64)

/-- `combine(hi, lo)` (R119): the first argument is the high half. -/
def combine (hi lo : Word) : Wide := hi.setWidth 128 <<< 64 ||| lo.setWidth 128

/-- `u128(x)` (R119). -/
def u128 (x : Word) : Wide := x.setWidth 128

/-- `low64(w)` (R119), a truncation. -/
def low64 (w : Wide) : Word := w.setWidth 64

/-- `high64(w)` (R119). -/
def high64 (w : Wide) : Word := (w >>> 64).setWidth 64

/-- The root of `n` found bit by bit from bit `k - 1` down, `root` being the bits found so far. -/
def isqrtLoop (n : Nat) : (k root : Nat) → Nat
  | 0, root => root
  | k + 1, root =>
    let trial := root + 2 ^ k
    isqrtLoop n k (if trial * trial ≤ n then trial else root)

/-- `isqrt(n)` (R125): the integer floor of the square root; the method is free (D24). -/
def isqrt (x : Word) : Word := BitVec.ofNat 64 (isqrtLoop x.toNat 32 0)

/-- `sqrt_nz(x) = max(isqrt(x), 1)` (R126). -/
def sqrtNz (x : Word) : Word := if isqrt x = 0 then 1 else isqrt x

/-- `murmurhash3(x)` (R127): shifts 55, 32, 15 (C2). -/
def murmurhash3 (x : Word) : Word :=
  let x1 := x ^^^ x >>> 55
  let x2 := x1 * 0xff51afd7ed558ccd
  let x3 := x2 ^^^ x2 >>> 32
  let x4 := x3 * 0xc4ceb9fe1a85ec53
  x4 ^^^ x4 >>> 15

/-- `map_index(x)` (R128) into a half of `half` words: shift 33, then multiply-high. -/
def mapIndexIn (half : Nat) (x : Word) : Nat :=
  let x1 := (x ^^^ x >>> 33) * 0xff51afd7ed558ccd
  (high64 (u128 x1 * BitVec.ofNat 128 half)).toNat

/-- `pick_half(seed)` (R129): bit 58 of `murmurhash3`; true selects half B. -/
def pickHalf (seed : Word) : Bool := (murmurhash3 seed).getLsbD 58

/-- One 128-bit modular product of `modpow` (R130). -/
def mulMod (x y m : Word) : Word := low64 ((u128 x * u128 y) % u128 m)

/-- The loop of `modpow` (R130), at most `fuel` passes: a 64-bit exponent takes at most 64. -/
def modpowLoop (m : Word) : (fuel : Nat) → (res b e : Word) → Word
  | 0, res, _, _ => res
  | fuel + 1, res, b, e =>
    if e = 0 then res
    else modpowLoop m fuel (if e.getLsbD 0 then mulMod res b m else res) (mulMod b b m) (e >>> 1)

/-- `modpow(base, exp, mod)` (R130), with the two corners of R131, which are the engine's parameters: modulus 0 (a) and
`modpow(_, 0, 1)` (b). -/
def modpow (p : EngineParams) (base exp mod : Word) : Word :=
  if mod = 0 then
    match p.modpowZero with
    | .zero => 0
    | .other => Config.modpowZeroOther base exp
  else if mod = 1 ∧ exp = 0 then p.modpowMod1Exp0
  else modpowLoop mod 64 1 (base % mod) exp

/-- `LE64(x)` (00_scope.md R13): the bytes of `x`, least significant first. -/
def le64 (x : Word) : List Byte := (List.range 8).map fun m => x.extractLsb' (8 * m) 8

/-- `BE64(x)` (00_scope.md R13): the bytes of `x`, most significant first. -/
def be64 (x : Word) : List Byte := (le64 x).reverse

/-- The little-endian value of a byte string (R13, `LE64` and `LE32` of a string). -/
def leValue : List Byte → Nat
  | [] => 0
  | b :: t => b.toNat + 256 * leValue t

/-- The first `n` bytes of a byte string, missing bytes 0. -/
def bytesToVector (n : Nat) (l : List Byte) : Vector Byte n := Vector.ofFn fun k => l.getD k.val 0

/-- Element `k mod n` of a register file: the circular indexing of 10_state.md R38, and plain indexing where `k < n`. -/
def regGet {α : Type} {n : Nat} [NeZero n] (v : Vector α n) (k : Nat) : α := v.get (Fin.ofNat n k)

/-- The register file with element `k mod n` replaced. -/
def regSet {α : Type} {n : Nat} [NeZero n] (v : Vector α n) (k : Nat) (x : α) : Vector α n :=
  v.set (k % n) x (Nat.mod_lt k (Nat.pos_of_neZero n))

/-- `f` applied `n` times. -/
def iterate {α : Type} (f : α → α) : Nat → α → α
  | 0, a => a
  | n + 1, a => iterate f n (f a)

end Sys2Proof.Machine
end

