-- ==== Sys2Proof/Machine/ChaCha.lean ====
section
/-! DEFINITION. `chacha8_keystream` (48_primitives.md R306, R311). -/

namespace Sys2Proof.Machine

/-- Sixteen 32-bit words: the ChaCha state, a BLAKE3 state or message block. -/
abbrev Block := Vector Half 16

/-- The little-endian 32-bit words of a byte string, `n` of them. -/
def leWords (n : Nat) (l : List Byte) : List Half :=
  (List.range n).map fun k => BitVec.ofNat 32 (leValue ((l.drop (4 * k)).take 4))

/-- The bytes of 32-bit words, each least significant byte first. -/
def halfBytes (l : List Half) : List Byte := l.flatMap fun x => (List.range 4).map fun m => x.extractLsb' (8 * m) 8

/-- `QR(a, b, c, d)` (R311). -/
def chachaQR (s : Block) (a b c d : Nat) : Block :=
  let s := regSet s a (regGet s a + regGet s b)
  let s := regSet s d ((regGet s d ^^^ regGet s a).rotateLeft 16)
  let s := regSet s c (regGet s c + regGet s d)
  let s := regSet s b ((regGet s b ^^^ regGet s c).rotateLeft 12)
  let s := regSet s a (regGet s a + regGet s b)
  let s := regSet s d ((regGet s d ^^^ regGet s a).rotateLeft 8)
  let s := regSet s c (regGet s c + regGet s d)
  regSet s b ((regGet s b ^^^ regGet s c).rotateLeft 7)

/-- One column round and one diagonal round (R311). -/
def chachaDoubleRound (s : Block) : Block :=
  let s := chachaQR s 0 4 8 12
  let s := chachaQR s 1 5 9 13
  let s := chachaQR s 2 6 10 14
  let s := chachaQR s 3 7 11 15
  let s := chachaQR s 0 5 10 15
  let s := chachaQR s 1 6 11 12
  let s := chachaQR s 2 7 8 13
  chachaQR s 3 4 9 14

/-- The initial state of block `n` (R311): constants, key, counter, nonce. -/
def chachaInit (key nonce : List Byte) (n : Nat) : Block :=
  let words : List Half :=
    [0x61707865, 0x3320646e, 0x79622d32, 0x6b206574] ++ leWords 8 key ++ [BitVec.ofNat 32 n] ++ leWords 3 nonce
  Vector.ofFn fun k => words.getD k.val 0

/-- Block `n` of the keystream, 64 bytes (R311). -/
def chachaBlock (key nonce : List Byte) (n : Nat) : List Byte :=
  let init := chachaInit key nonce n
  let s := iterate chachaDoubleRound 4 init
  halfBytes ((List.range 16).map fun k => regGet s k + regGet init k)

/-- `chacha8_keystream(key, nonce, n)` (R306, R311): the first `n` bytes of blocks 0, 1, .... -/
def chacha8Keystream (key nonce : List Byte) (n : Nat) : List Byte :=
  ((List.range ((n + 63) / 64)).flatMap (chachaBlock key nonce)).take n

end Sys2Proof.Machine
end

