-- ==== Sys2Proof/Machine/Blake3.lean ====
section
/-! DEFINITION. `blake3` (48_primitives.md R307, R312): the unkeyed hash, 32 bytes of output. -/

namespace Sys2Proof.Machine

/-- A chaining value: eight 32-bit words. -/
abbrev ChainValue := List Half

/-- `IV` (R312). -/
def blakeIv : List Half :=
  [0x6A09E667, 0xBB67AE85, 0x3C6EF372, 0xA54FF53A, 0x510E527F, 0x9B05688C, 0x1F83D9AB, 0x5BE0CD19]

/-- The message permutation `P` (R312). -/
def blakePerm : List Nat := [2, 6, 3, 10, 7, 0, 4, 13, 1, 11, 12, 5, 9, 14, 15, 8]

/-- The flags (R312). -/
abbrev blakeChunkStart : Nat := 1
abbrev blakeChunkEnd : Nat := 2
abbrev blakeParent : Nat := 4
abbrev blakeRoot : Nat := 8

/-- `G(a, b, c, d, x, y)` (R312). -/
def blakeG (s : Block) (a b c d : Nat) (x y : Half) : Block :=
  let s := regSet s a (regGet s a + regGet s b + x)
  let s := regSet s d ((regGet s d ^^^ regGet s a).rotateRight 16)
  let s := regSet s c (regGet s c + regGet s d)
  let s := regSet s b ((regGet s b ^^^ regGet s c).rotateRight 12)
  let s := regSet s a (regGet s a + regGet s b + y)
  let s := regSet s d ((regGet s d ^^^ regGet s a).rotateRight 8)
  let s := regSet s c (regGet s c + regGet s d)
  regSet s b ((regGet s b ^^^ regGet s c).rotateRight 7)

/-- One round on the state and the message block, and the permuted block (R312). -/
def blakeRound (p : Block × Block) : Block × Block :=
  let m := p.2
  let s := blakeG p.1 0 4 8 12 (regGet m 0) (regGet m 1)
  let s := blakeG s 1 5 9 13 (regGet m 2) (regGet m 3)
  let s := blakeG s 2 6 10 14 (regGet m 4) (regGet m 5)
  let s := blakeG s 3 7 11 15 (regGet m 6) (regGet m 7)
  let s := blakeG s 0 5 10 15 (regGet m 8) (regGet m 9)
  let s := blakeG s 1 6 11 12 (regGet m 10) (regGet m 11)
  let s := blakeG s 2 7 8 13 (regGet m 12) (regGet m 13)
  let s := blakeG s 3 4 9 14 (regGet m 14) (regGet m 15)
  (s, Vector.ofFn fun k => regGet m (blakePerm.getD k.val 0))

/-- `compress` (R312). -/
def blakeCompress (cv : ChainValue) (m : List Half) (counter blen flags : Nat) : ChainValue :=
  let words := cv ++ blakeIv.take 4 ++
    [BitVec.ofNat 32 counter, BitVec.ofNat 32 (counter / 2 ^ 32), BitVec.ofNat 32 blen, BitVec.ofNat 32 flags]
  let s : Block := Vector.ofFn fun k => words.getD k.val 0
  let mv : Block := Vector.ofFn fun k => m.getD k.val 0
  let out := (iterate blakeRound 7 (s, mv)).1
  (List.range 8).map fun k => regGet out k ^^^ regGet out (k + 8)

/-- A byte string cut into pieces of `n` bytes, the last maybe shorter; the empty string is one empty piece. `fuel` bounds
the number of pieces. -/
def cutPieces (n : Nat) : (fuel : Nat) → List Byte → List (List Byte)
  | 0, l => [l]
  | fuel + 1, l => if l.length ≤ n then [l] else l.take n :: cutPieces n fuel (l.drop n)

/-- The blocks of chunk `t` in order (R312): `first` says that the next block is the first one, `root` that the chunk is the
whole message. -/
def blakeBlocks (t : Nat) (root : Bool) : (first : Bool) → ChainValue → List (List Byte) → ChainValue
  | _, cv, [] => cv
  | first, cv, b :: rest =>
    let last := rest.isEmpty
    let flags := (if first then blakeChunkStart else 0) + (if last then blakeChunkEnd else 0) +
      (if last && root then blakeRoot else 0)
    blakeBlocks t root false (blakeCompress cv (leWords 16 b) t b.length flags) rest

/-- The chaining value of chunk `t` (R312). -/
def blakeChunk (t : Nat) (root : Bool) (chunk : List Byte) : ChainValue :=
  blakeBlocks t root true blakeIv (cutPieces 64 15 chunk)

/-- The chaining value of the subtree over a list of chunk values (R312): the left child takes the largest power of two
below their number. `fuel` is at least the number of chunks. -/
def blakeTree (root : Bool) : (fuel : Nat) → List ChainValue → ChainValue
  | 0, _ => []
  | _ + 1, [] => []
  | _ + 1, [cv] => cv
  | fuel + 1, cvs =>
    let left := 2 ^ Nat.log2 (cvs.length - 1)
    let l := blakeTree false fuel (cvs.take left)
    let r := blakeTree false fuel (cvs.drop left)
    blakeCompress blakeIv (l ++ r) 0 64 (blakeParent + if root then blakeRoot else 0)

/-- `blake3(msg)` (R307, R312), 32 bytes. -/
def blake3 (msg : List Byte) : List Byte :=
  let chunks := cutPieces 1024 msg.length msg
  match chunks with
  | [c] => halfBytes (blakeChunk 0 true c)
  | _ => halfBytes (blakeTree true chunks.length (chunks.mapIdx fun t c => blakeChunk t false c))

end Sys2Proof.Machine
end

