-- ==== Sys2Proof/Syntax.lean ====
section
/-! DEFINITION. The operations of the engine: one constructor of `Instr` per row of the opcode table (30_encoding.md
R90, R102), the operand forms of the host commands, and the selectors an operation is chosen by (R91, R95 to R97). -/

namespace Sys2Proof

/-- What a `WRIN` writes: one byte, `IN[k]`, or a 32-bit access that packs `IN[4w .. 4w+3]` little-endian
(47_finalize_host.md R302, R300). -/
inductive InWrite where
  | byte (k : BitVec 32) (b : Byte)
  | word (w : BitVec 30) (v : Half)
deriving DecidableEq, Repr

/-- What an `RDDIGEST` reads: byte `k`, or the 32-bit word at offset `0x20 + 4w` (47_finalize_host.md R300). -/
inductive DigestRef where
  | byte (k : BitVec 5)
  | word (w : BitVec 3)
deriving DecidableEq, Repr

/-- The operations (30_encoding.md R90, R99, R102). Only the host commands have operands (R98). -/
inductive Instr where
  -- format N4, VER = 1: 43_v1_mix.md R173 to R188
  | v1b0 | v1b1 | v1b2 | v1b3 | v1b4 | v1b5 | v1b6 | v1b7
  | v1b8 | v1b9 | v1b10 | v1b11 | v1b12 | v1b13 | v1b14 | v1b15
  -- format N4, VER = 2: 45_v2_mix.md R223 to R238
  | v2b0 | v2b1 | v2b2 | v2b3 | v2b4 | v2b5 | v2b6 | v2b7
  | v2b8 | v2b9 | v2b10 | v2b11 | v2b12 | v2b13 | v2b14 | v2b15
  -- format N4, VER = 3: 46_v3_mix.md R252 to R267
  | v3b0 | v3b1 | v3b2 | v3b3 | v3b4 | v3b5 | v3b6 | v3b7
  | v3b8 | v3b9 | v3b10 | v3b11 | v3b12 | v3b13 | v3b14 | v3b15
  -- format F2: 42_v1_fill_permute.md R152 to R155
  | v1f0 | v1f1 | v1f2 | v1f3
  -- format SEQ: 10_state.md R25
  | absorb | kfill | slotld | perm | slotwb | prime | head1 | br1 | tail1
  | cfzero | cfseed | cfchunk | mxsetup | head2 | step2 | tail2 | head3 | step3 | tail3 | fin
  -- format HOST: 47_finalize_host.md R297 to R304
  | start
  | wrmode (ver : BitVec 2) (padded : Bool)
  | wrlen (n : Half)
  | wrin (d : InWrite)
  | rdstatus
  | rddigest (d : DigestRef)
  | padrd (k : BitVec 32)
  | padwr (k : BitVec 32) (w : Word)
deriving DecidableEq, Repr

/-- One access of the host (47_finalize_host.md R295 (a)): to the register window, at a byte offset of 10_state.md R21,
8 or 32 bits wide, or to the scratchpad port, at a word index. -/
inductive HostAccess where
  | write8 (off : BitVec 32) (d : Byte)
  | write32 (off : BitVec 32) (d : Half)
  | read8 (off : BitVec 32)
  | read32 (off : BitVec 32)
  | padWrite (k : BitVec 32) (w : Word)
  | padRead (k : BitVec 32)
deriving DecidableEq, Repr

/-- What selects an operation, one form per format of 30_encoding.md: `{VER[1:0], NIB[3:0]}` (R91), the fill select
(R95), the `STAGE` code (R96), a host access (R97). -/
inductive Selector where
  | n4 (w : BitVec 6)
  | f2 (w : BitVec 2)
  | seq (w : BitVec 5)
  | host (a : HostAccess)
deriving DecidableEq, Repr

end Sys2Proof
end

