-- ==== Sys2Proof/WellFormed.lean ====
section
/-! DEFINITION. Which operations the opcode table's operand ranges admit (the `value` column of the host commands). -/

namespace Sys2Proof

/-- Words of the largest scratchpad (00_scope.md R5, the v3 column). -/
abbrev maxPadWords : Nat := 67968

/-- Offset of `IN[0]` in the register window (10_state.md R21). -/
abbrev inBase : Nat := 0x1000

/-- The operand ranges that every engine has: an input byte whose offset is one of the register window (log 22), a scratchpad
word below the largest `MEM_WORDS` (47_finalize_host.md R303, R304). The bounds of the engine at hand, `IN_CAP` (R302) and the
running version's `MEM_WORDS`, are checked where the access is made. Every other operation takes any operand its type
holds. -/
def Instr.wellFormed (i : Instr) : Bool :=
  match i with
  | .wrin (.byte k _) => decide (inBase + k.toNat < 2 ^ 32)
  | .wrin (.word w _) => decide (inBase + 4 * w.toNat < 2 ^ 32)
  | .padrd k => decide (k.toNat < maxPadWords)
  | .padwr k _ => decide (k.toNat < maxPadWords)
  | .v1b0 | .v1b1 | .v1b2 | .v1b3 | .v1b4 | .v1b5 | .v1b6 | .v1b7 | .v1b8 | .v1b9 | .v1b10 | .v1b11 | .v1b12 | .v1b13 | .v1b14 | .v1b15 => true
  | .v2b0 | .v2b1 | .v2b2 | .v2b3 | .v2b4 | .v2b5 | .v2b6 | .v2b7 | .v2b8 | .v2b9 | .v2b10 | .v2b11 | .v2b12 | .v2b13 | .v2b14 | .v2b15 => true
  | .v3b0 | .v3b1 | .v3b2 | .v3b3 | .v3b4 | .v3b5 | .v3b6 | .v3b7 | .v3b8 | .v3b9 | .v3b10 | .v3b11 | .v3b12 | .v3b13 | .v3b14 | .v3b15 => true
  | .v1f0 | .v1f1 | .v1f2 | .v1f3 => true
  | .absorb | .kfill | .slotld | .perm | .slotwb | .prime | .head1 | .br1 | .tail1 => true
  | .cfzero | .cfseed | .cfchunk | .mxsetup | .head2 | .step2 | .tail2 | .head3 | .step3 | .tail3 | .fin => true
  | .start | .wrmode _ _ | .wrlen _ | .rdstatus | .rddigest _ => true

end Sys2Proof
end

