-- ==== Sys2Proof/Machine/Params.lean ====
section
/-! DEFINITION. The constants of each version (00_scope.md R5, R6). `VER = 0` names no version (10_state.md R22). -/

namespace Sys2Proof.Machine

/-- `MEM_WORDS` of v1 (R5). -/
abbrev words1 : Nat := 32768

/-- `HALF` of v2 (R5). -/
abbrev half2 : Nat := 27456

/-- `MEM_WORDS` of v2 (R5), `2 * HALF`. -/
abbrev words2 : Nat := 54912

/-- `HALF` of v3 (R5). -/
abbrev half3 : Nat := 33984

/-- `MEM_WORDS` of v3 (R5), `2 * HALF`. -/
abbrev words3 : Nat := 67968

/-- `MIX_ITERS` (R5). -/
abbrev mixIters1 : Nat := 5000
abbrev mixIters2 : Nat := 3
abbrev mixIters3 : Nat := 2

/-- `STAGE1_MAX` (R5): the index of the short last row of the v1 fill. -/
abbrev stage1Max : Nat := 1310

/-- `S2_ITERS` (R5). -/
abbrev s2Iters : Nat := 1

/-- `V1_STEPS` (R5). -/
abbrev v1Steps : Nat := 32

/-- `MEM_WORDS(VER)` (R5); no word for the reserved version 0. -/
def memWords (ver : BitVec 2) : Nat :=
  match ver.toNat with
  | 0 => 0
  | 1 => words1
  | 2 => words2
  | _ => words3

/-- `MEM_BYTES(VER)` (R5). -/
def memBytes (ver : BitVec 2) : Nat := 8 * memWords ver

/-- `HALF` of the running version, for `VER` 2 and 3 (R5). -/
def halfWords (ver : BitVec 2) : Nat := memWords ver / 2

/-- `VER` is 2 or 3: the versions of the operations that take their constants from `VER` (R25 of 10_state.md). -/
def mixVer (ver : BitVec 2) : Bool := ver == 2 || ver == 3

/-- The words the host reaches through the scratchpad port: `MEM_WORDS(VER)` (47_finalize_host.md R303, R304), and the
whole attached memory while `VER` names no version (DESIGN CHOICE, log 14). -/
def hostPadWords (ver : BitVec 2) : Nat := if ver = 0 then maxPadWords else memWords ver

/-- `AES_KEY(VER)` (R6), byte 0 first. Version 0 has no key and takes the zero key of v1; no operation asks for it. -/
def aesKey (ver : BitVec 2) : List Byte :=
  match ver.toNat with
  | 2 => [0x78, 0x65, 0x6c, 0x69, 0x73, 0x68, 0x61, 0x73] ++ [0x68, 0x2d, 0x70, 0x6f, 0x77, 0x2d, 0x76, 0x32]
  | 3 => [0x78, 0x65, 0x6c, 0x69, 0x73, 0x68, 0x61, 0x73] ++ [0x68, 0x2d, 0x70, 0x6f, 0x77, 0x2d, 0x76, 0x33]
  | _ => List.replicate 16 0

end Sys2Proof.Machine
end

