-- ==== Sys2Proof/Machine/State.lean ====
section
/-! DEFINITION. The combined state of one engine (10_state.md R20, 20_memory.md R60), the stops of the model, and the
state after reset (70_reset_and_hazards.md R351). -/

namespace Sys2Proof.Machine

/-- The 23 values of `SEQ.STAGE` (10_state.md R25), in the order of their codes 0 to 22. -/
inductive Stage where
  | idle
  | v1Absorb | v1Fill | v1Slotld | v1Perm | v1Slotwb | v1Prime | v1Head | v1Br | v1Tail
  | cfZero | cfSeed | cfChunk | mxSetup
  | v2Head | v2Step | v2Tail
  | v3Head | v3Step | v3Tail
  | fin | done | fault
deriving DecidableEq, Repr

/-- The codes of `STATUS.ERR` (60_exceptions.md R321); codes 7 to 15 are never written (U8). -/
inductive ErrCode where
  | none | invalidInputLength | primitiveError | invalidHash | illegalVer | fillRange | fillNonceShort
deriving DecidableEq, Repr

/-- What happens next from outside the sequencer (log 6): a host access (47_finalize_host.md R295), a tick in which the
sequencer moves, or the reset (70_reset_and_hazards.md R350). -/
inductive Input where
  | access (a : HostAccess)
  | tick
  | reset
deriving DecidableEq, Repr

/-- A byte memory: the listed bytes, addresses strictly rising and no listed byte 0; an unlisted byte reads 0 (log 2). -/
abbrev Memory := List Host.Cell

/-- The combined state. The comments name the spec's register and the rule that gives it. -/
structure State where
  /-- `MODE.VER` (10_state.md R22). -/
  ver : BitVec 2
  /-- `MODE.PADDED` (R23). -/
  padded : Bool
  /-- `LEN` (R23). -/
  len : Half
  /-- `STATUS.ERR` (R27). -/
  err : ErrCode
  /-- `DIGEST` (R28). -/
  digest : Vector Byte 32
  /-- `IN` (R29): byte `k` at address `k`. -/
  input : Memory
  /-- `SEQ.STAGE` (R24, R25). -/
  stage : Stage
  /-- `SEQ.I` (R24). -/
  i : Half
  /-- `SEQ.J` (R24). -/
  j : Half
  /-- `RESULT` (R30, R31). -/
  result : Word
  /-- `ADDRA` (R30, R32). -/
  addrA : Word
  /-- `ADDRB` (R30, R32). -/
  addrB : Word
  /-- `R` (R30, R33). -/
  r : Word
  /-- `KSTATE` (R36). -/
  kstate : Vector Word 25
  /-- `RAND` (R36). -/
  rand : Word
  /-- `SLOTS` (R37). -/
  slots : Vector Half 256
  /-- `INDICES` (R37). -/
  indices : Vector Byte 256
  /-- `TOTALSUM` (R37). -/
  totalSum : Half
  /-- `BUFA` (R38). -/
  bufA : Vector Word 42
  /-- `BUFB` (R38). -/
  bufB : Vector Word 42
  /-- `H` (R39). -/
  h : Vector Byte 32
  /-- `NONCE` (R39). -/
  nonce : Vector Byte 12
  /-- `OUTOFF` (R39). -/
  outOff : Word
  /-- `NUMCHUNKS` (R39). -/
  numChunks : Half
  /-- `PAD`, the scratchpad in its byte view (20_memory.md R60 (a), R62). -/
  pad : Memory
  /-- The parameters of this engine (00_scope.md R7); no operation and no reset changes them (log 3, log 4). -/
  params : EngineParams
  /-- The model's own: what the host does next (log 6). -/
  inputs : List Input
  /-- The model's own: what the last host read returned (log 12). -/
  hostData : Word
  /-- The model's own: how many free values have been read (log 5). -/
  freeCtr : Nat
deriving DecidableEq, Repr

/-- The stops of the model. The machine's own faults (60_exceptions.md R320) are next states. -/
inductive Fault where
  /-- `PADRD` or `PADWR` at a word that the attached scratchpad does not have (U20). Safe (log 15). -/
  | padRange
  /-- A sequencer operation with `SEQ.I`, `SEQ.J` or `R` outside the range its rule gives (10_state.md R24, R25, R30):
  no run reaches it and no rule says what it does. Safe (log 16). -/
  | seqRange
  /-- `CFZERO`, `CFCHUNK`, `MXSETUP` or `FIN` with `VER` neither 2 nor 3, for which 00_scope.md R5 gives the operation
  no constants: no run reaches it. Safe (log 17). -/
  | versionRange
deriving DecidableEq, Repr

/-- The refusals of the model. -/
inductive Refusal where
  /-- An operation that has no meaning yet; raised by `exec`'s arm alone (no arm does). Safe. -/
  | notModelled (mnemonic : String)
deriving DecidableEq, Repr

/-- What executing an operation answers. -/
abbrev Result := Host.Outcome State Fault Refusal

/-- The machine right after reset (70_reset_and_hazards.md R351, 10_state.md R43): `SEQ = (S_IDLE, 0, 0)` and `ERR = 0`
are the spec's. Every other register is unspecified there and 0 here (DESIGN CHOICE, log 1); the scratchpad and the input
buffer list nothing (log 2); the parameters are the spec's defaults (log 3, log 4). -/
def State.reset : State where
  ver := 0
  padded := false
  len := 0
  err := .none
  digest := Vector.replicate 32 0
  input := []
  stage := .idle
  i := 0
  j := 0
  result := 0
  addrA := 0
  addrB := 0
  r := 0
  kstate := Vector.replicate 25 0
  rand := 0
  slots := Vector.replicate 256 0
  indices := Vector.replicate 256 0
  totalSum := 0
  bufA := Vector.replicate 42 0
  bufB := Vector.replicate 42 0
  h := Vector.replicate 32 0
  nonce := Vector.replicate 12 0
  outOff := 0
  numChunks := 0
  pad := []
  params := EngineParams.defaults
  inputs := []
  hostData := 0
  freeCtr := 0

end Sys2Proof.Machine
end

