-- ==== Sys2Proof/Machine/Ops.lean ====
section
/-! DEFINITION. The named operations over memory and registers: the byte memory and its three views (20_memory.md R61 to
R65), the sequencer position (10_state.md R24), taking a fault (60_exceptions.md R330), the host's reads, the reset. -/

namespace Sys2Proof.Machine

/-! ### The byte memory -/

/-- A byte of a memory; a byte that nothing lists reads 0 (DESIGN CHOICE, log 2). -/
def Memory.read : Memory → Nat → Byte
  | [], _ => 0
  | c :: t, a => if c.1 = a then c.2 else Memory.read t a

/-- The cells of a byte string laid out from address `a`: a byte that is 0 takes no cell. -/
def Memory.cells : Nat → List Byte → Memory
  | _, [] => []
  | a, b :: t => if b = 0 then Memory.cells (a + 1) t else (a, b) :: Memory.cells (a + 1) t

/-- A memory with a byte string written from address `a` on (20_memory.md R64, R65). Keeps the canonical form. -/
def Memory.writeBytes (m : Memory) (a : Nat) (bs : List Byte) : Memory :=
  m.filter (fun c => decide (c.1 < a)) ++ Memory.cells a bs ++ m.filter (fun c => decide (a + bs.length ≤ c.1))

/-- The byte string at addresses `a` to `a + n - 1`. -/
def Memory.readBytes (m : Memory) (a n : Nat) : List Byte := (List.range n).map fun k => m.read (a + k)

/-- The canonical form: addresses strictly rising, no listed byte equal to what an unlisted one reads as. -/
abbrev Memory.wf (m : Memory) : Prop := m.Pairwise (fun x y => x.1 < y.1) ∧ ∀ c ∈ m, c.2 ≠ 0

/-- `MemRead(addr, n)` (20_memory.md R65): little-endian (R62). -/
def Memory.readLE (m : Memory) (a n : Nat) : Nat := leValue (m.readBytes a n)

/-- `LE32(x)`: the bytes of `x`, least significant first. -/
def le32 (x : Half) : List Byte := (List.range 4).map fun m => x.extractLsb' (8 * m) 8

/-! ### The scratchpad's views (R61 to R64) -/

/-- `PAD64[k]` (R61, R65). -/
def State.pad64 (s : State) (k : Nat) : Word := BitVec.ofNat 64 (s.pad.readLE (8 * k) 8)

/-- `PAD64[k] <- w` (R61, R65). -/
def State.setPad64 (s : State) (k : Nat) (w : Word) : State := { s with pad := s.pad.writeBytes (8 * k) (le64 w) }

/-- `PAD32[k]` (R63, R65). -/
def State.pad32 (s : State) (k : Nat) : Half := BitVec.ofNat 32 (s.pad.readLE (4 * k) 4)

/-- `PAD32[k] <- x` (R63, R64, R65). -/
def State.setPad32 (s : State) (k : Nat) (x : Half) : State := { s with pad := s.pad.writeBytes (4 * k) (le32 x) }

/-- `PAD8[a .. a + n)` (R62). -/
def State.padBytes (s : State) (a n : Nat) : List Byte := s.pad.readBytes a n

/-- `PAD8[a .. a + length) <- bs` (R62, R64). -/
def State.setPadBytes (s : State) (a : Nat) (bs : List Byte) : State := { s with pad := s.pad.writeBytes a bs }

/-- The scratchpad with its first `n` bytes 0 (44_chacha_fill.md R200). -/
def State.zeroPad (s : State) (n : Nat) : State := { s with pad := s.pad.filter fun c => decide (n ≤ c.1) }

/-- `PAD32[k + d] <- f d` for `d` in 0 to `n - 1`, in order. -/
def State.setPad32s (s : State) (k : Nat) (f : Nat → Half) (n : Nat) : State :=
  (List.range n).foldl (fun s d => s.setPad32 (k + d) (f d)) s

/-- `IN[a .. a + n)` (10_state.md R29). -/
def State.inBytes (s : State) (a n : Nat) : List Byte := s.input.readBytes a n

/-! ### The sequencer (10_state.md R24, R26) -/

/-- `SEQ <- (stage, i, j)` (R24). -/
def State.goto (s : State) (stage : Stage) (i j : Half) : State := { s with stage := stage, i := i, j := j }

/-- `raise F` (60_exceptions.md R330): the code and `SEQ = (S_FAULT, 0, 0)`, nothing else. There is no return from it
(R331): `START` or the reset leaves `S_FAULT`. -/
def State.raise (s : State) (e : ErrCode) : State := { s with err := e, stage := .fault, i := 0, j := 0 }

/-- `STATUS.RUN = BUSY` (R26): every stage but the three resting ones. -/
def State.busy (s : State) : Bool :=
  match s.stage with
  | .idle | .done | .fault => false
  | .v1Absorb | .v1Fill | .v1Slotld | .v1Perm | .v1Slotwb | .v1Prime | .v1Head | .v1Br | .v1Tail => true
  | .cfZero | .cfSeed | .cfChunk | .mxSetup => true
  | .v2Head | .v2Step | .v2Tail | .v3Head | .v3Step | .v3Tail | .fin => true

/-! ### The host's side -/

/-- A host read that returns `v`. -/
def State.hostRead (s : State) (v : Word) : State := { s with hostData := v }

/-- A host read whose value the spec leaves unspecified, of a register of `n` bits (60_exceptions.md R336, R337; log 5): the
next free value, and no other effect. -/
def State.freeRead (s : State) (n : Nat) : State :=
  { s with hostData := ((Config.freeWord s.freeCtr).setWidth n).setWidth 64, freeCtr := s.freeCtr + 1 }

/-- A host write that is refused while `BUSY` (R336): it changes nothing. -/
def State.hostWrite (s : State) (f : State → State) : State := if s.busy then s else f s

/-- The reset (70_reset_and_hazards.md R350, R351): every register at its value after reset; the scratchpad is not
touched, nor are the engine's parameters. The model's own fields stay, but for the input that was the reset (log 13). -/
def State.applyReset (s : State) : State :=
  { State.reset with pad := s.pad, params := s.params, inputs := s.inputs, hostData := s.hostData, freeCtr := s.freeCtr }

/-- The state with the input that this step handles taken off the list (log 6). -/
def State.takeInput (s : State) : State := { s with inputs := s.inputs.tail }

end Sys2Proof.Machine
end

