-- ==== Sys2Proof/Machine/Operands.lean ====
section
/-! DEFINITION. The implicit operands of the operations (30_encoding.md R98) and the nibbles and selects that choose an
operation (R93 to R95). -/

namespace Sys2Proof.Machine

/-- `SEQ.I` as a number. -/
def State.iNat (s : State) : Nat := s.i.toNat

/-- `SEQ.J` as a number. -/
def State.jNat (s : State) : Nat := s.j.toNat

/-- The operands of a v1 branch-table operation (R98, 43_v1_mix.md R172). -/
structure V1Operands where
  result : Word
  a : Word
  b : Word
  j : Nat
deriving DecidableEq, Repr

/-- `BR1`'s operand fetch (R172): elements `(j + i) mod 42` of the circular buffers. -/
def State.v1Operands (s : State) : V1Operands where
  result := s.result
  a := regGet s.bufA (s.jNat + s.iNat)
  b := regGet s.bufB (s.jNat + s.iNat)
  j := s.jNat

/-- The v1 nibble (R93): `(RESULT >> 2j) & 0xF`. -/
def v1Nibble (result : Word) (j : Nat) : BitVec 4 := result.extractLsb' (2 * j) 4

/-- The operands of a v2 or v3 branch-table operation (R98): `r` is the cursor after its advance, `i` and `j` are
zero-extended. -/
structure MixOperands where
  result : Word
  a : Word
  b : Word
  c : Word
  r : Word
  i : Word
  j : Word
deriving DecidableEq, Repr

/-- The v2 and v3 nibble (R94): `rotl(RESULT, c) & 0xF`. -/
def mixNibble (result c : Word) : BitVec 4 := (rotl result c.toNat).extractLsb' 0 4

/-- `MA[k]` (20_memory.md R68), a word of the low half. -/
def State.ma (s : State) (k : Nat) : Word := s.pad64 k

/-- `MB[k]` (20_memory.md R68), a word of the high half, `half` words up. -/
def State.mb (s : State) (half k : Nat) : Word := s.pad64 (half + k)

/-- The cursor after its advance (10_state.md R33): `(R + 1) mod words`. -/
def nextCursor (words : Nat) (r : Word) : Word := BitVec.ofNat 64 ((r.toNat + 1) % words)

/-- `STEP2`'s operand fetch (45_v2_mix.md R222): both indices use `R` before the advance, `r` is after it. -/
def State.v2Operands (s : State) : MixOperands where
  result := s.result
  a := s.ma (s.result.toNat % half2)
  b := s.mb half2 ((~~~ rotr s.result s.r.toNat).toNat % half2)
  c := s.pad64 s.r.toNat
  r := nextCursor words2 s.r
  i := s.i.setWidth 64
  j := s.j.setWidth 64

/-- `map_index` (40_arith.md R128), with the `HALF` of v3. -/
def mapIndex (x : Word) : Nat := mapIndexIn half3 x

/-- `STEP3`'s operand fetch (46_v3_mix.md R251): the second index depends on the word just read; `r` is after the advance. -/
def State.v3Operands (s : State) : MixOperands where
  result := s.result
  a := s.ma (mapIndex s.result)
  b := s.mb half3 (mapIndex (s.ma (mapIndex s.result) ^^^ ~~~ rotr s.result s.r.toNat))
  c := s.pad64 s.r.toNat
  r := nextCursor words3 s.r
  i := s.i.setWidth 64
  j := s.j.setWidth 64

/-- The fill select (R95): `(left ^ right) & 3`. -/
def fillSelect (left right : Word) : BitVec 2 := (left ^^^ right).extractLsb' 0 2

/-- `KSTATE[(j + 1) mod 25]` (42_v1_fill_permute.md R151). -/
def State.fillLeft (s : State) : Word := regGet s.kstate (s.jNat + 1)

/-- `KSTATE[(j + 2) mod 25]` (42_v1_fill_permute.md R151). -/
def State.fillRight (s : State) : Word := regGet s.kstate (s.jNat + 2)

/-- The words of fill row `i` (42_v1_fill_permute.md R151): 25, and 18 in the last row. -/
def rowLength (i : Nat) : Nat := if i < stage1Max then 25 else 18

end Sys2Proof.Machine
end

