-- ==== Sys2Proof/Machine/ChaChaFill.lean ====
section
/-! DEFINITION. The v2 and v3 fill (44_chacha_fill.md): `CFZERO`, `CFSEED`, `CFCHUNK`. -/

namespace Sys2Proof.Machine

/-- `CFZERO` (R200). -/
def execCfzero (s : State) : Result :=
  if mixVer s.ver then .next ((s.zeroPad (memBytes s.ver)).goto .cfSeed 0 0) else .fault .versionRange

/-- `NUMCHUNKS` for an input of `len` bytes (R201): `(LEN + 31) div 32`, the sum not wrapping. -/
def chunkCount (len : Half) : Half := BitVec.ofNat 32 ((len.toNat + 31) / 32)

/-- `CFSEED` (R201). -/
def execCfseed (s : State) : Result :=
  let h := blake3 (s.inBytes 0 s.len.toNat)
  let n := chunkCount s.len
  let t := { s with h := bytesToVector 32 h, nonce := bytesToVector 12 h, outOff := 0, numChunks := n }
  .next (if n = 0 then t.goto .mxSetup 0 0 else t.goto .cfChunk 0 0)

/-- The 64 bytes that `CFCHUNK` hashes (R202, R39): `H`, the chunk `IN[32k .. min(32k + 32, LEN))`, zero bytes. -/
def State.chunkMessage (s : State) : List Byte :=
  let chunk := s.inBytes (32 * s.iNat) (min (32 * s.iNat + 32) s.len.toNat - 32 * s.iNat)
  s.h.toList ++ chunk ++ List.replicate (32 - chunk.length) 0

/-- `cur` of `CFCHUNK` (R202, 40_arith.md R132), in 64-bit arithmetic. -/
def State.chunkCur (s : State) : Word :=
  let remaining : Word := BitVec.ofNat 64 (memBytes s.ver) - s.outOff
  let chunkOut := remaining / (s.numChunks.setWidth 64 - s.i.setWidth 64)
  if remaining < chunkOut then remaining else chunkOut

/-- The position after chunk `k` (R202). -/
def State.chunkNext (s : State) : State :=
  if s.iNat + 1 < s.numChunks.toNat then s.goto .cfChunk (s.i + 1) 0 else s.goto .mxSetup 0 0

/-- The keystream applied to `PAD8[offset .. offset + cur)`, the cursor and the nonce (R202). -/
def State.chunkFill (s : State) (offset cur : Nat) : State :=
  let ks := chacha8Keystream s.h.toList s.nonce.toList cur
  let t := s.setPadBytes offset ((s.padBytes offset cur).zipWith (· ^^^ ·) ks)
  { t with outOff := s.outOff + BitVec.ofNat 64 cur, nonce := bytesToVector 12 (t.padBytes (offset + cur - 12) 12) }

/-- `CFCHUNK` (R202): `H` is updated before either fault is raised (R204, R205; 60_exceptions.md R328, R330). -/
def execCfchunk (s : State) : Result :=
  if mixVer s.ver then
    if s.iNat < s.numChunks.toNat then
      let cur := s.chunkCur.toNat
      let offset := s.iNat * cur
      let t := { s with h := bytesToVector 32 (blake3 s.chunkMessage) }
      .next (
        if memBytes s.ver < offset + cur then t.raise .fillRange
        else if cur < 12 then t.raise .fillNonceShort
        else (t.chunkFill offset cur).chunkNext)
    else .fault .seqRange
  else .fault .versionRange

end Sys2Proof.Machine
end

