-- ==== Sys2Proof/Machine/Finalize.lean ====
section
/-! DEFINITION. The finalize operation (47_finalize_host.md): `FIN`. v1 has none (R292). -/

namespace Sys2Proof.Machine

/-- `FIN` (R290): the digest is the hash of the version's whole scratchpad, byte by byte. -/
def execFin (s : State) : Result :=
  if mixVer s.ver then
    .next ({ s with digest := bytesToVector 32 (blake3 (s.padBytes 0 (memBytes s.ver))) }.goto .done 0 0)
  else .fault .versionRange

end Sys2Proof.Machine
end

