-- ==== Sys2Proof/Decode.lean ====
section
/-! DEFINITION. Decoding of the selectors of 30_encoding.md, total, rejecting by name; the encoder beside it; and the
reading of the opcode table's words. -/

namespace Sys2Proof

/-- Why a selector names no operation. -/
inductive DecodeError where
  /-- An `N4` selector with `VER = 0`: no table (30_encoding.md R92). -/
  | versionZero
  /-- `STAGE` codes 0, 21, 22: the resting states execute nothing (R96). -/
  | resting
  /-- `STAGE` codes 23 to 31 (R100). -/
  | reservedStage
  /-- A host access that is none of the eight commands (R97). -/
  | noCommand
deriving DecidableEq, Repr

/-- The v1 branch table by nibble (R99). -/
def v1Ops : Vector Instr 16 :=
  #v[.v1b0, .v1b1, .v1b2, .v1b3, .v1b4, .v1b5, .v1b6, .v1b7,
    .v1b8, .v1b9, .v1b10, .v1b11, .v1b12, .v1b13, .v1b14, .v1b15]

/-- The v2 branch table by nibble (R99). -/
def v2Ops : Vector Instr 16 :=
  #v[.v2b0, .v2b1, .v2b2, .v2b3, .v2b4, .v2b5, .v2b6, .v2b7,
    .v2b8, .v2b9, .v2b10, .v2b11, .v2b12, .v2b13, .v2b14, .v2b15]

/-- The v3 branch table by nibble (R99). -/
def v3Ops : Vector Instr 16 :=
  #v[.v3b0, .v3b1, .v3b2, .v3b3, .v3b4, .v3b5, .v3b6, .v3b7,
    .v3b8, .v3b9, .v3b10, .v3b11, .v3b12, .v3b13, .v3b14, .v3b15]

/-- The entry of a branch table that a nibble selects (R99). -/
def tableEntry (ops : Vector Instr 16) (nib : BitVec 4) : Instr := ops[nib.toNat]'nib.isLt

/-- Format `N4` (R91, R92): `VER` in bits 5:4, `NIB` in bits 3:0. -/
def decodeN4 (w : BitVec 6) : Except DecodeError Instr :=
  let nib : BitVec 4 := w.extractLsb' 0 4
  match (w.extractLsb' 4 2 : BitVec 2).toNat with
  | 0 => .error .versionZero
  | 1 => .ok (tableEntry v1Ops nib)
  | 2 => .ok (tableEntry v2Ops nib)
  | _ => .ok (tableEntry v3Ops nib)

/-- Format `F2` (R95). -/
def decodeF2 (w : BitVec 2) : Instr :=
  match w.toNat with
  | 0 => .v1f0
  | 1 => .v1f1
  | 2 => .v1f2
  | _ => .v1f3

/-- Format `SEQ` (R96, 10_state.md R25). -/
def decodeSeq (w : BitVec 5) : Except DecodeError Instr :=
  match w.toNat with
  | 0 => .error .resting
  | 1 => .ok .absorb
  | 2 => .ok .kfill
  | 3 => .ok .slotld
  | 4 => .ok .perm
  | 5 => .ok .slotwb
  | 6 => .ok .prime
  | 7 => .ok .head1
  | 8 => .ok .br1
  | 9 => .ok .tail1
  | 10 => .ok .cfzero
  | 11 => .ok .cfseed
  | 12 => .ok .cfchunk
  | 13 => .ok .mxsetup
  | 14 => .ok .head2
  | 15 => .ok .step2
  | 16 => .ok .tail2
  | 17 => .ok .head3
  | 18 => .ok .step3
  | 19 => .ok .tail3
  | 20 => .ok .fin
  | 21 => .error .resting
  | 22 => .error .resting
  | _ => .error .reservedStage

/-- Format `HOST` (R97): the command a host access is, by the register map of 10_state.md R21. Bits 31:3 of a word
written to `MODE` are ignored (47_finalize_host.md R298); a write of 0 to `CTRL.START` is no command. A write from `IN[0]` up
is a `WRIN`, whose meaning knows `IN_CAP` (R302). -/
def decodeHost (a : HostAccess) : Except DecodeError Instr :=
  match a with
  | .write32 off d =>
    if off.toNat = 0x00 then (if d.getLsbD 0 then .ok .start else .error .noCommand)
    else if off.toNat = 0x04 then .ok (.wrmode (d.extractLsb' 0 2) (d.getLsbD 2))
    else if off.toNat = 0x08 then .ok (.wrlen d)
    else if inBase ≤ off.toNat ∧ off.toNat % 4 = 0 then
      .ok (.wrin (.word (BitVec.ofNat 30 ((off.toNat - inBase) / 4)) d))
    else .error .noCommand
  | .write8 off d =>
    if inBase ≤ off.toNat then
      .ok (.wrin (.byte (BitVec.ofNat 32 (off.toNat - inBase)) d))
    else .error .noCommand
  | .read32 off =>
    if off.toNat = 0x0C then .ok .rdstatus
    else if 0x20 ≤ off.toNat ∧ off.toNat < 0x40 ∧ off.toNat % 4 = 0 then
      .ok (.rddigest (.word (BitVec.ofNat 3 ((off.toNat - 0x20) / 4))))
    else .error .noCommand
  | .read8 off =>
    if 0x20 ≤ off.toNat ∧ off.toNat < 0x40 then .ok (.rddigest (.byte (BitVec.ofNat 5 (off.toNat - 0x20))))
    else .error .noCommand
  | .padWrite k w => .ok (.padwr k w)
  | .padRead k => .ok (.padrd k)

/-- The operation a selector names, or why it names none. -/
def decode (s : Selector) : Except DecodeError Instr :=
  match s with
  | .n4 w => decodeN4 w
  | .f2 w => .ok (decodeF2 w)
  | .seq w => decodeSeq w
  | .host a => decodeHost a

/-- The selector of an operation, from the `encoding` column of the opcode table (R91, R95 to R97). -/
def encode (i : Instr) : Selector :=
  match i with
  | .v1b0 => .n4 0b010000
  | .v1b1 => .n4 0b010001
  | .v1b2 => .n4 0b010010
  | .v1b3 => .n4 0b010011
  | .v1b4 => .n4 0b010100
  | .v1b5 => .n4 0b010101
  | .v1b6 => .n4 0b010110
  | .v1b7 => .n4 0b010111
  | .v1b8 => .n4 0b011000
  | .v1b9 => .n4 0b011001
  | .v1b10 => .n4 0b011010
  | .v1b11 => .n4 0b011011
  | .v1b12 => .n4 0b011100
  | .v1b13 => .n4 0b011101
  | .v1b14 => .n4 0b011110
  | .v1b15 => .n4 0b011111
  | .v2b0 => .n4 0b100000
  | .v2b1 => .n4 0b100001
  | .v2b2 => .n4 0b100010
  | .v2b3 => .n4 0b100011
  | .v2b4 => .n4 0b100100
  | .v2b5 => .n4 0b100101
  | .v2b6 => .n4 0b100110
  | .v2b7 => .n4 0b100111
  | .v2b8 => .n4 0b101000
  | .v2b9 => .n4 0b101001
  | .v2b10 => .n4 0b101010
  | .v2b11 => .n4 0b101011
  | .v2b12 => .n4 0b101100
  | .v2b13 => .n4 0b101101
  | .v2b14 => .n4 0b101110
  | .v2b15 => .n4 0b101111
  | .v3b0 => .n4 0b110000
  | .v3b1 => .n4 0b110001
  | .v3b2 => .n4 0b110010
  | .v3b3 => .n4 0b110011
  | .v3b4 => .n4 0b110100
  | .v3b5 => .n4 0b110101
  | .v3b6 => .n4 0b110110
  | .v3b7 => .n4 0b110111
  | .v3b8 => .n4 0b111000
  | .v3b9 => .n4 0b111001
  | .v3b10 => .n4 0b111010
  | .v3b11 => .n4 0b111011
  | .v3b12 => .n4 0b111100
  | .v3b13 => .n4 0b111101
  | .v3b14 => .n4 0b111110
  | .v3b15 => .n4 0b111111
  | .v1f0 => .f2 0b00
  | .v1f1 => .f2 0b01
  | .v1f2 => .f2 0b10
  | .v1f3 => .f2 0b11
  | .absorb => .seq 0b00001
  | .kfill => .seq 0b00010
  | .slotld => .seq 0b00011
  | .perm => .seq 0b00100
  | .slotwb => .seq 0b00101
  | .prime => .seq 0b00110
  | .head1 => .seq 0b00111
  | .br1 => .seq 0b01000
  | .tail1 => .seq 0b01001
  | .cfzero => .seq 0b01010
  | .cfseed => .seq 0b01011
  | .cfchunk => .seq 0b01100
  | .mxsetup => .seq 0b01101
  | .head2 => .seq 0b01110
  | .step2 => .seq 0b01111
  | .tail2 => .seq 0b10000
  | .head3 => .seq 0b10001
  | .step3 => .seq 0b10010
  | .tail3 => .seq 0b10011
  | .fin => .seq 0b10100
  | .start => .host (.write32 0x00 1)
  | .wrmode ver padded => .host (.write32 0x04 (ver.setWidth 32 ||| (if padded then 4 else 0)))
  | .wrlen n => .host (.write32 0x08 n)
  | .wrin (.byte k b) => .host (.write8 (BitVec.ofNat 32 (inBase + k.toNat)) b)
  | .wrin (.word w v) => .host (.write32 (BitVec.ofNat 32 (inBase + 4 * w.toNat)) v)
  | .rdstatus => .host (.read32 0x0C)
  | .rddigest (.byte k) => .host (.read8 (BitVec.ofNat 32 (0x20 + k.toNat)))
  | .rddigest (.word w) => .host (.read32 (BitVec.ofNat 32 (0x20 + 4 * w.toNat)))
  | .padrd k => .host (.padRead k)
  | .padwr k w => .host (.padWrite k w)

/-- The selector a word of the opcode table stands for. The table writes the pattern of each format alone, so its words
overlap across formats; a width of exactly 6, 5 or 2 bits tells the format, and in a whole byte the model reads 0 as
`F2`, 1 to 20 as `SEQ` and 21 to 63 as `N4` (DESIGN CHOICE, log 8). The host commands have no word in the table. -/
def tableSelector (nbits w : Nat) : Option Selector :=
  if nbits = 6 then (if w < 64 then some (.n4 (BitVec.ofNat 6 w)) else none)
  else if nbits = 5 then (if w < 32 then some (.seq (BitVec.ofNat 5 w)) else none)
  else if nbits = 2 then (if w < 4 then some (.f2 (BitVec.ofNat 2 w)) else none)
  else if nbits = 0 then none
  else if w = 0 then some (.f2 0)
  else if w ≤ 20 then some (.seq (BitVec.ofNat 5 w))
  else if w < 64 then some (.n4 (BitVec.ofNat 6 w))
  else none

/-- The operation the decoder reads from a word of the opcode table (see `tableSelector`). -/
def decodeTableWord (nbits w : Nat) : Option Instr :=
  match tableSelector nbits w with
  | none => none
  | some s =>
    match decode s with
    | .ok i => some i
    | .error _ => none

end Sys2Proof
end

