-- ==== Sys2Proof/Machine/Flags.lean ====
section
/-! DEFINITION. The status bits, which are all the flags there are (10_state.md R40): `STATUS.RUN`, a function of `STAGE`
(R26), and `STATUS.ERR` (R27). -/

namespace Sys2Proof.Machine

/-- `STATUS.RUN` (10_state.md R21, R26): 0 `IDLE`, 1 `BUSY`, 2 `DONE`, 3 `FAULT`. -/
def State.runCode (s : State) : BitVec 2 :=
  match s.stage with
  | .idle => 0
  | .done => 2
  | .fault => 3
  | .v1Absorb | .v1Fill | .v1Slotld | .v1Perm | .v1Slotwb | .v1Prime | .v1Head | .v1Br | .v1Tail => 1
  | .cfZero | .cfSeed | .cfChunk | .mxSetup => 1
  | .v2Head | .v2Step | .v2Tail | .v3Head | .v3Step | .v3Tail | .fin => 1

/-- The number of a fault code (60_exceptions.md R321). -/
def errNumber (e : ErrCode) : BitVec 4 :=
  match e with
  | .none => 0
  | .invalidInputLength => 1
  | .primitiveError => 2
  | .invalidHash => 3
  | .illegalVer => 4
  | .fillRange => 5
  | .fillNonceShort => 6

/-- The word that a read of `STATUS` returns (47_finalize_host.md R299): `RUN` in bits 1:0, `ERR` in bits 7:4. -/
def State.statusWord (s : State) : Half := s.runCode.setWidth 32 ||| (errNumber s.err).setWidth 32 <<< 4

/-- The word that a read of `MODE` returns (47_finalize_host.md R298): `VER` in bits 1:0, `PADDED` in bit 2. -/
def State.modeWord (s : State) : Half := s.ver.setWidth 32 ||| (BitVec.ofBool s.padded).setWidth 32 <<< 2

end Sys2Proof.Machine
end

