-- ==== Sys2Proof/Machine/HostCmd.lean ====
section
/-! DEFINITION. The host commands (47_finalize_host.md R295 to R304) and the other accesses of the register window
(10_state.md R21). While `BUSY` all but `RDSTATUS` is refused (60_exceptions.md R336). -/

namespace Sys2Proof.Machine

/-- `START`'s checks in their order (R297; 60_exceptions.md R328): the fault to raise, if any. -/
def State.startFault (s : State) : ErrCode :=
  if s.ver = 0 then .illegalVer
  else if s.params.inCap < s.len.toNat then .invalidInputLength
  else if s.ver = 1 ∧ s.padded = false ∧ s.len ≠ 200 then .invalidInputLength
  else if s.ver = 1 ∧ s.padded = true ∧ 120 < s.len.toNat then .invalidInputLength
  else .none

/-- An accepted `START` (R297): `ERR` cleared, then the fault or the first operation of the version. -/
def State.startRun (s : State) : State :=
  let t := { s with err := .none }
  match s.startFault with
  | .none => t.goto (if s.ver = 1 then .v1Absorb else .cfZero) 0 0
  | e => t.raise e

/-- `START` (R297). -/
def execStart (s : State) : Result := .next (s.hostWrite State.startRun)

/-- `WRMODE` (R298). -/
def execWrmode (ver : BitVec 2) (padded : Bool) (s : State) : Result :=
  .next (s.hostWrite fun s => { s with ver := ver, padded := padded })

/-- `WRLEN` (R301). -/
def execWrlen (n : Half) (s : State) : Result := .next (s.hostWrite fun s => { s with len := n })

/-- `IN` with bytes written at `k`; bytes at and beyond `IN_CAP` are outside the window (R302). -/
def State.setInBytes (s : State) (k : Nat) (bs : List Byte) : State :=
  { s with input := s.input.writeBytes k (bs.take (s.params.inCap - k)) }

/-- `WRIN` (R302): one byte, or four of them little-endian. -/
def execWrin (d : InWrite) (s : State) : Result :=
  match d with
  | .byte k b => .next (s.hostWrite fun s => s.setInBytes k.toNat [b])
  | .word w v => .next (s.hostWrite fun s => s.setInBytes (4 * w.toNat) (le32 v))

/-- `RDSTATUS` (R299): accepted in every state. -/
def execRdstatus (s : State) : Result := .next (s.hostRead (s.statusWord.setWidth 64))

/-- `RDDIGEST` (R300): unspecified outside `DONE` (60_exceptions.md R336, R337). -/
def execRddigest (d : DigestRef) (s : State) : Result :=
  match d with
  | .byte k => .next (if s.stage = .done then s.hostRead ((s.digest.get k.toFin).setWidth 64) else s.freeRead 8)
  | .word w =>
    .next (
      if s.stage = .done then
        s.hostRead (BitVec.ofNat 64 (leValue ((List.range 4).map fun m => regGet s.digest (4 * w.toNat + m))))
      else s.freeRead 32)

/-- `PADRD` (R303): a word that the scratchpad does not have is outside the specification (U20). -/
def execPadrd (k : BitVec 32) (s : State) : Result :=
  if s.busy then .next (s.freeRead 64)
  else if k.toNat < hostPadWords s.ver then .next (s.hostRead (s.pad64 k.toNat))
  else .fault .padRange

/-- `PADWR` (R304): as `PADRD`. -/
def execPadwr (k : BitVec 32) (w : Word) (s : State) : Result :=
  if s.busy then .next s
  else if k.toNat < hostPadWords s.ver then .next (s.setPad64 k.toNat w)
  else .fault .padRange

/-- What a 32-bit read of the window returns outside the commands (10_state.md R21, R298, R302): `CTRL`, `MODE`, `LEN`, `IN`;
nothing at any other offset. -/
def State.windowRead (s : State) (off : Nat) : Option Half :=
  if off = 0x04 then some s.modeWord
  else if off = 0x08 then some s.len
  else if inBase ≤ off ∧ off + 4 ≤ inBase + s.params.inCap ∧ off % 4 = 0 then
    some (BitVec.ofNat 32 (s.input.readLE (off - inBase) 4))
  else none

/-- A host access that is no command (log 18): reads of `CTRL` (always 0, 10_state.md R21), of `MODE`, `LEN` and `IN`
when not `BUSY` (R298, R302; 60_exceptions.md R336); every other read is unspecified; a write has no effect (U10, U19). -/
def State.otherAccess (s : State) (a : HostAccess) : State :=
  match a with
  | .write8 _ _ => s
  | .write32 _ _ => s
  | .padWrite _ _ => s
  | .padRead _ => s.freeRead 64
  | .read8 off =>
    if s.busy = false ∧ inBase ≤ off.toNat ∧ off.toNat < inBase + s.params.inCap then
      s.hostRead ((s.input.read (off.toNat - inBase)).setWidth 64)
    else s.freeRead 8
  | .read32 off =>
    if off = 0 then s.hostRead 0
    else if s.busy then s.freeRead 32
    else
      match s.windowRead off.toNat with
      | some v => s.hostRead (v.setWidth 64)
      | none => s.freeRead 32

end Sys2Proof.Machine
end

