-- ==== Sys2Proof/Machine/Keccak.lean ====
section
/-! DEFINITION. `keccak_perm` (48_primitives.md R305): the 12-round Keccak-p[1600, 12] of R310 (C1). -/

namespace Sys2Proof.Machine

/-- The Keccak state: lane `k` is at `x = k mod 5`, `y = k div 5` (R305). -/
abbrev Lanes := Vector Word 25

/-- The rotation amounts `RHO[x][y]` (R310), a row per `x`. -/
def keccakRho : List (List Nat) :=
  [[0, 36, 3, 41, 18],
   [1, 44, 10, 45, 2],
   [62, 6, 43, 15, 61],
   [28, 55, 25, 21, 56],
   [27, 20, 39, 8, 14]]

/-- The round constants `RC[12]` to `RC[23]` (R310). -/
def keccakRc : List Word :=
  [0x000000008000808b, 0x800000000000008b, 0x8000000000008089, 0x8000000000008003,
   0x8000000000008002, 0x8000000000000080, 0x000000000000800a, 0x800000008000000a,
   0x8000000080008081, 0x8000000000008080, 0x0000000080000001, 0x8000000080008008]

/-- `A[x][y]`, the coordinates taken modulo 5. -/
def keccakLane (a : Lanes) (x y : Nat) : Word := regGet a (x % 5 + 5 * (y % 5))

/-- The parity `C[x]` of column `x` (R310, theta). -/
def keccakParity (a : Lanes) : Vector Word 5 :=
  Vector.ofFn fun x => keccakLane a x 0 ^^^ keccakLane a x 1 ^^^ keccakLane a x 2 ^^^ keccakLane a x 3 ^^^ keccakLane a x 4

/-- The theta step (R310). -/
def keccakTheta (a : Lanes) : Lanes :=
  let c := keccakParity a
  let d : Vector Word 5 := Vector.ofFn fun x => regGet c (x.val + 4) ^^^ rotl (regGet c (x.val + 1)) 1
  Vector.ofFn fun k => a.get k ^^^ regGet d k.val

/-- The rho and pi steps (R310): `B[y][(2x + 3y) mod 5] = rotl(A[x][y], RHO[x][y])`. The lane at `x' = y`,
`y' = 2x + 3y` comes from `x = x' + 3y'` modulo 5. -/
def keccakRhoPi (a : Lanes) : Lanes :=
  Vector.ofFn fun k =>
    let y := k.val % 5
    let x := (k.val % 5 + 3 * (k.val / 5)) % 5
    rotl (keccakLane a x y) ((keccakRho.getD x []).getD y 0)

/-- The chi step (R310). -/
def keccakChi (b : Lanes) : Lanes :=
  Vector.ofFn fun k =>
    let x := k.val % 5
    let y := k.val / 5
    keccakLane b x y ^^^ (~~~ keccakLane b (x + 1) y &&& keccakLane b (x + 2) y)

/-- One round with its constant (R310), iota last. -/
def keccakRound (a : Lanes) (rc : Word) : Lanes :=
  let b := keccakChi (keccakRhoPi (keccakTheta a))
  regSet b 0 (regGet b 0 ^^^ rc)

/-- `keccak_perm(S)` (R305, R310): the last twelve rounds of Keccak-f[1600]. -/
def keccakPerm (s : Lanes) : Lanes := keccakRc.foldl keccakRound s

end Sys2Proof.Machine
end

