-- ==== Sys2Proof/Machine/V1Fill.lean ====
section
/-! DEFINITION. The v1 fill and slot permutation (42_v1_fill_permute.md): `ABSORB`, `KFILL`, `V1.F0` to `V1.F3`, `SLOTLD`,
`PERM`, `SLOTWB`. -/

namespace Sys2Proof.Machine

/-- `ABSORB` (R150): the lanes of the input, padded with zero bytes to 200. -/
def execAbsorb (s : State) : Result :=
  let inp := s.inBytes 0 s.len.toNat
  .next ({ s with kstate := Vector.ofFn fun k => BitVec.ofNat 64 (leValue ((inp.drop (8 * k.val)).take 8)) }.goto .v1Fill 0 0)

/-- `V1.F0` (R152). -/
def v1f0 (left right : Word) : Word := left &&& right

/-- `V1.F1` (R153). -/
def v1f1 (left right : Word) : Word := ~~~ (left &&& right)

/-- `V1.F2` (R154). -/
def v1f2 (left right : Word) : Word := ~~~ (left ^^^ right)

/-- `V1.F3` (R155). -/
def v1f3 (left right : Word) : Word := left ^^^ right

/-- The fill select's operation (30_encoding.md R95). -/
def fillOp (sel : BitVec 2) : Word → Word → Word :=
  match sel.toNat with
  | 0 => v1f0
  | 1 => v1f1
  | 2 => v1f2
  | _ => v1f3

/-- The position after word `j` of row `i` (R151): the next word, and after the last one the next row or `SLOTLD`. -/
def State.fillNext (s : State) : State :=
  if s.jNat + 1 < rowLength s.iNat then s.goto .v1Fill s.i (s.j + 1)
  else if s.iNat < stage1Max then s.goto .v1Fill (s.i + 1) 0
  else s.goto .v1Slotld 0 0

/-- One pass of the inner loop of `KFILL` (R151), for word `SEQ.J` of row `SEQ.I`, with the select operation `op`. -/
def State.fillPass (s : State) (op : Word → Word → Word) : State :=
  let b := (regGet s.kstate s.jNat ^^^ s.rand) ^^^ op s.fillLeft s.fillRight
  { s.setPad64 (25 * s.iNat + s.jNat) b with rand := b }.fillNext

/-- The pass with the operation that the data selects (R151, R95). -/
def State.fillSelected (s : State) : State := s.fillPass (fillOp (fillSelect s.fillLeft s.fillRight))

/-- `KFILL` (R151): the permutation once, then the passes of the whole row. -/
def execKfill (s : State) : Result :=
  if s.iNat ≤ stage1Max then
    .next (iterate State.fillSelected (rowLength s.iNat) { s with kstate := keccakPerm s.kstate, rand := 0, j := 0 })
  else .fault .seqRange

/-- A fill-select operation (R152 to R155): the pass of the inner loop of `KFILL` that it is selected for (log 10). -/
def fillStep (op : Word → Word → Word) (s : State) : Result :=
  if s.iNat ≤ stage1Max ∧ s.jNat < rowLength s.iNat then .next (s.fillPass op) else .fault .seqRange

/-- `V1.F0` (R152, R151). -/
def execV1f0 (s : State) : Result := fillStep v1f0 s

/-- `V1.F1` (R153, R151). -/
def execV1f1 (s : State) : Result := fillStep v1f1 s

/-- `V1.F2` (R154, R151). -/
def execV1f2 (s : State) : Result := fillStep v1f2 s

/-- `V1.F3` (R155, R151). -/
def execV1f3 (s : State) : Result := fillStep v1f3 s

/-- First 32-bit word of the slot home (20_memory.md R69). -/
abbrev slotHome : Nat := 65280

/-- `SLOTLD` (R157). -/
def execSlotld (s : State) : Result :=
  .next ({ s with slots := Vector.ofFn fun k => s.pad32 (slotHome + k.val) }.goto .v1Perm 0 0)

/-- `PAD32[256j + k]`, word `k` of the chunk that `PERM` works on (R158). -/
def State.chunkWord (s : State) (k : Nat) : Half := s.pad32 (256 * s.jNat + k)

/-- Bit 31 of a slot, its sign in `PERM` (R159, R160). -/
def slotSign (x : Half) : Bool := x.getLsbD 31

/-- One addition of phase 1 (R159). -/
def State.permSum (s : State) (total : Half) (k : Nat) : Half :=
  if slotSign (regGet s.slots k) then total - s.chunkWord k else total + s.chunkWord k

/-- `PERM` phase 1 (R159). -/
def State.permPhase1 (s : State) : State :=
  { s with totalSum := (List.range 256).foldl s.permSum 0, indices := Vector.ofFn fun k => BitVec.ofNat 8 k.val }

/-- One iteration of the reverse pass of `PERM` (R160) at `slotIdx`. -/
def State.permPass (s : State) (slotIdx : Nat) : State :=
  let pos := (s.chunkWord slotIdx).toNat % (slotIdx + 1)
  let index := (regGet s.indices pos).toNat
  let s1 := slotSign (regGet s.slots index)
  let padValue := s.chunkWord index
  let localSum := if s1 then s.totalSum + padValue else s.totalSum - padValue
  let slot := regGet s.slots index + localSum
  let s2 := slotSign slot
  let total :=
    if s2 && !s1 then s.totalSum - 2 * padValue
    else if !s2 && s1 then s.totalSum + 2 * padValue
    else s.totalSum
  { s with
    indices := regSet s.indices pos (regGet s.indices slotIdx)
    slots := regSet s.slots index slot
    totalSum := total }

/-- `PERM` phase 2 (R160): `slotIdx` from `n - 1` down to 0. -/
def State.permPhase2 : Nat → State → State
  | 0, s => s
  | n + 1, s => State.permPhase2 n (s.permPass n)

/-- The position after chunk `j` (R158). -/
def State.permNext (s : State) : State :=
  if s.jNat < 255 then s.goto .v1Perm s.i (s.j + 1)
  else if s.iNat + 1 < s2Iters then s.goto .v1Perm (s.i + 1) 0
  else s.goto .v1Slotwb 0 0

/-- `PERM` (R158). -/
def execPerm (s : State) : Result :=
  if s.jNat ≤ 255 then .next (State.permPhase2 256 s.permPhase1).permNext else .fault .seqRange

/-- `SLOTWB` (R161). -/
def execSlotwb (s : State) : Result :=
  .next ((s.setPad32s slotHome (fun k => regGet s.slots k) 256).goto .v1Prime 0 0)

end Sys2Proof.Machine
end

