-- ==== Sys2Proof/Machine/Aes.lean ====
section
/-! DEFINITION. `aes_round` (48_primitives.md R308, R313) and the AES-round integrator shim (41_aes_shim.md). -/

namespace Sys2Proof.Machine

/-- The rows of `SBOX` (R313), one 128-bit number per high nibble, the entry of low nibble 0 first. -/
def sboxRows : List Nat :=
  [0x637c777bf26b6fc53001672bfed7ab76, 0xca82c97dfa5947f0add4a2af9ca472c0,
   0xb7fd9326363ff7cc34a5e5f171d83115, 0x04c723c31896059a071280e2eb27b275] ++
  [0x09832c1a1b6e5aa0523bd6b329e32f84, 0x53d100ed20fcb15b6acbbe394a4c58cf,
   0xd0efaafb434d338545f9027f503c9fa8, 0x51a3408f929d38f5bcb6da2110fff3d2] ++
  [0xcd0c13ec5f974417c4a77e3d645d1973, 0x60814fdc222a908846eeb814de5e0bdb,
   0xe0323a0a4906245cc2d3ac629195e479, 0xe7c8376d8dd54ea96c56f4ea657aae08] ++
  [0xba78252e1ca6b4c6e8dd741f4bbd8b8a, 0x703eb5664803f60e613557b986c11d9e,
   0xe1f8981169d98e949b1e87e9ce5528df, 0x8ca1890dbfe6426841992d0fb054bb16]

/-- `SBOX[x]` (R313). -/
def sbox (x : Byte) : Byte :=
  BitVec.ofNat 8 (sboxRows.getD (x.toNat / 16) 0 >>> (8 * (15 - x.toNat % 16)))

/-- `2·x` in GF(2^8) (R313). -/
def gfDouble (x : Byte) : Byte := (x <<< 1) ^^^ (if x.getLsbD 7 then 0x1b else 0)

/-- `3·x` in GF(2^8) (R313). -/
def gfTriple (x : Byte) : Byte := gfDouble x ^^^ x

/-- SubBytes and ShiftRows (R313): byte `r + 4c` comes from `r + 4((c + r) mod 4)`. -/
def aesShifted (s : List Byte) (k : Nat) : Byte := sbox (s.getD (k % 4 + 4 * ((k / 4 + k % 4) % 4)) 0)

/-- MixColumns (R313): row `k mod 4` of column `k div 4`. -/
def aesMixed (s : List Byte) (k : Nat) : Byte :=
  let x0 := aesShifted s (4 * (k / 4))
  let x1 := aesShifted s (4 * (k / 4) + 1)
  let x2 := aesShifted s (4 * (k / 4) + 2)
  let x3 := aesShifted s (4 * (k / 4) + 3)
  match k % 4 with
  | 0 => gfDouble x0 ^^^ gfTriple x1 ^^^ x2 ^^^ x3
  | 1 => x0 ^^^ gfDouble x1 ^^^ gfTriple x2 ^^^ x3
  | 2 => x0 ^^^ x1 ^^^ gfDouble x2 ^^^ gfTriple x3
  | _ => gfTriple x0 ^^^ x1 ^^^ x2 ^^^ gfDouble x3

/-- `aes_round(block, key)` (R140, R308, R313): the key is added last. -/
def aesRound (block key : List Byte) : List Byte :=
  (List.range 16).map fun k => aesMixed block k ^^^ key.getD k 0

/-- The shim (41_aes_shim.md R141 to R146): `memB` is packed first; v3 uses both halves of the output. -/
def shim (ver : BitVec 2) (memA memB : Word) : Word :=
  let out := aesRound (le64 memB ++ le64 memA) (aesKey ver)
  let hash1 : Word := BitVec.ofNat 64 (leValue (out.take 8))
  let hash2 : Word := BitVec.ofNat 64 (leValue (out.drop 8))
  if ver = 3 then ~~~ (hash1 ^^^ hash2) else ~~~ (hash1 ^^^ (memA ^^^ memB))

end Sys2Proof.Machine
end

