-- ==== Sys2Proof/Machine/V1Mix.lean ====
section
/-! DEFINITION. The v1 mix (43_v1_mix.md): `PRIME`, `HEAD1`, `BR1`, `V1.B0` to `V1.B15`, `TAIL1`. -/

namespace Sys2Proof.Machine

/-- A 15-bit slice as a scratchpad address (20_memory.md R70): `(x >> n) & 0x7FFF`. -/
def slice15 (x : Word) (n : Nat) : Word := (x >>> n) &&& 0x7FFF

/-- `PRIME` (R170). -/
def execPrime (s : State) : Result :=
  let last := s.pad64 (words1 - 1)
  let addrA := slice15 last 15
  let addrB := slice15 last 0
  .next ({ s with
    addrA := addrA
    addrB := addrB
    bufA := Vector.ofFn fun k => s.pad64 ((addrA.toNat + k.val) % words1)
    bufB := Vector.ofFn fun k => s.pad64 ((addrB.toNat + k.val) % words1) }.goto .v1Head 0 0)

/-- `HEAD1` (R171). -/
def execHead1 (s : State) : Result :=
  .next ({ s with result := shim 1 (regGet s.bufA s.iNat) (regGet s.bufB s.iNat) }.goto .v1Br s.i 0)

/-- `V1.B0` (R173). -/
def v1b0 (o : V1Operands) : Word := rotl o.result o.j ^^^ o.b
/-- `V1.B1` (R174). -/
def v1b1 (o : V1Operands) : Word := ~~~ (rotl o.result o.j ^^^ o.a)
/-- `V1.B2` (R175). -/
def v1b2 (o : V1Operands) : Word := ~~~ (o.result ^^^ o.a)
/-- `V1.B3` (R176). -/
def v1b3 (o : V1Operands) : Word := o.result ^^^ o.b
/-- `V1.B4` (R177). -/
def v1b4 (o : V1Operands) : Word := o.result ^^^ (o.a + o.b)
/-- `V1.B5` (R178). -/
def v1b5 (o : V1Operands) : Word := o.result ^^^ (o.a - o.b)
/-- `V1.B6` (R179). -/
def v1b6 (o : V1Operands) : Word := o.result ^^^ (o.b - o.a)
/-- `V1.B7` (R180). -/
def v1b7 (o : V1Operands) : Word := o.result ^^^ (o.a * o.b)
/-- `V1.B8` (R181). -/
def v1b8 (o : V1Operands) : Word := o.result ^^^ (o.a &&& o.b)
/-- `V1.B9` (R182). -/
def v1b9 (o : V1Operands) : Word := o.result ^^^ (o.a ||| o.b)
/-- `V1.B10` (R183). -/
def v1b10 (o : V1Operands) : Word := o.result ^^^ (o.a ^^^ o.b)
/-- `V1.B11` (R184). -/
def v1b11 (o : V1Operands) : Word := o.result ^^^ (o.a - o.result)
/-- `V1.B12` (R185). -/
def v1b12 (o : V1Operands) : Word := o.result ^^^ (o.b - o.result)
/-- `V1.B13` (R186). -/
def v1b13 (o : V1Operands) : Word := o.result ^^^ (o.a + o.result)
/-- `V1.B14` (R187). -/
def v1b14 (o : V1Operands) : Word := o.result ^^^ (o.result - o.a)
/-- `V1.B15` (R188). -/
def v1b15 (o : V1Operands) : Word := o.result ^^^ (o.result - o.b)

/-- The v1 branch table by nibble (30_encoding.md R99). -/
def v1Table : Vector (V1Operands → Word) 16 :=
  #v[v1b0, v1b1, v1b2, v1b3, v1b4, v1b5, v1b6, v1b7, v1b8, v1b9, v1b10, v1b11, v1b12, v1b13, v1b14, v1b15]

/-- A step of `S_V1_BR` with the table entry `entry` (R172): the entry writes `RESULT`, and `SEQ` advances. An operation
`V1.B<n>` is this step with its own entry (log 9). -/
def v1Step (entry : V1Operands → Word) (s : State) : Result :=
  let t := { s with result := entry s.v1Operands }
  .next (if s.jNat < v1Steps - 1 then t.goto .v1Br s.i (s.j + 1) else t.goto .v1Tail s.i 0)

/-- `BR1` (R172): the step whose entry the nibble selects (R93). -/
def execBr1 (s : State) : Result := v1Step (v1Table.get (v1Nibble s.result s.jNat).toFin) s

/-- `V1.B0` (R173, R172). -/
def execV1b0 (s : State) : Result := v1Step v1b0 s
/-- `V1.B1` (R174, R172). -/
def execV1b1 (s : State) : Result := v1Step v1b1 s
/-- `V1.B2` (R175, R172). -/
def execV1b2 (s : State) : Result := v1Step v1b2 s
/-- `V1.B3` (R176, R172). -/
def execV1b3 (s : State) : Result := v1Step v1b3 s
/-- `V1.B4` (R177, R172). -/
def execV1b4 (s : State) : Result := v1Step v1b4 s
/-- `V1.B5` (R178, R172). -/
def execV1b5 (s : State) : Result := v1Step v1b5 s
/-- `V1.B6` (R179, R172). -/
def execV1b6 (s : State) : Result := v1Step v1b6 s
/-- `V1.B7` (R180, R172). -/
def execV1b7 (s : State) : Result := v1Step v1b7 s
/-- `V1.B8` (R181, R172). -/
def execV1b8 (s : State) : Result := v1Step v1b8 s
/-- `V1.B9` (R182, R172). -/
def execV1b9 (s : State) : Result := v1Step v1b9 s
/-- `V1.B10` (R183, R172). -/
def execV1b10 (s : State) : Result := v1Step v1b10 s
/-- `V1.B11` (R184, R172). -/
def execV1b11 (s : State) : Result := v1Step v1b11 s
/-- `V1.B12` (R185, R172). -/
def execV1b12 (s : State) : Result := v1Step v1b12 s
/-- `V1.B13` (R186, R172). -/
def execV1b13 (s : State) : Result := v1Step v1b13 s
/-- `V1.B14` (R187, R172). -/
def execV1b14 (s : State) : Result := v1Step v1b14 s
/-- `V1.B15` (R188, R172). -/
def execV1b15 (s : State) : Result := v1Step v1b15 s

/-- `DIGEST[8·index .. 8·index + 8) <- BE64(x)` (R189). -/
def emitDigest (d : Vector Byte 32) (index : Nat) (x : Word) : Vector Byte 32 :=
  Vector.ofFn fun k => if k.val / 8 = index then (be64 x).getD (k.val % 8) 0 else d.get k

/-- The digest after `TAIL1` at `i` (R189): the last four iterations emit `RESULT`, the last one first. -/
def State.tailDigest (s : State) : Vector Byte 32 :=
  if s.iNat < mixIters1 ∧ mixIters1 - 1 - s.iNat ≤ 3 then emitDigest s.digest (mixIters1 - 1 - s.iNat) s.result
  else s.digest

/-- `TAIL1` (R189): the scratchpad is read at `ADDRB` before it is written at `ADDRA`. -/
def execTail1 (s : State) : Result :=
  let addrB := slice15 s.result 0
  let addrA := slice15 s.result 15
  let t := { s with
    addrB := addrB
    addrA := addrA
    bufA := regSet s.bufA s.iNat s.result
    bufB := regSet s.bufB s.iNat (s.pad64 addrB.toNat)
    digest := s.tailDigest }
  let t := t.setPad64 addrA.toNat s.result
  .next (if s.iNat < mixIters1 - 1 then t.goto .v1Head (s.i + 1) 0 else t.goto .done 0 0)

end Sys2Proof.Machine
end

