-- ==== Sys2Proof/Machine/V2Mix.lean ====
section
/-! DEFINITION. The set-up that v2 and v3 share and the v2 mix (45_v2_mix.md): `MXSETUP`, `HEAD2`, `STEP2`, `V2.B0` to
`V2.B15`, `TAIL2`. -/

namespace Sys2Proof.Machine

/-- `MXSETUP` (R220). -/
def execMxsetup (s : State) : Result :=
  if mixVer s.ver then
    let half := halfWords s.ver
    let t := { s with addrA := s.mb half (half - 1), addrB := s.ma (half - 1) >>> 32, r := 0 }
    .next (t.goto (if s.ver = 2 then .v2Head else .v3Head) 0 0)
  else .fault .versionRange

/-- `HEAD2` (R221). -/
def execHead2 (s : State) : Result :=
  let memA := s.ma (s.addrA.toNat % half2)
  let memB := s.mb half2 (s.addrB.toNat % half2)
  .next ({ s with result := shim 2 memA memB }.goto .v2Step s.i 0)

/-- `V2.B0` (R223): the rotate amount is the product `i·j`. -/
def v2b0 (o : MixOperands) : Word := o.result ^^^ (rotl o.c (o.i * o.j).toNat ^^^ o.b)
/-- `V2.B1` (R224). -/
def v2b1 (o : MixOperands) : Word := o.result ^^^ (rotr o.c (o.i * o.j).toNat ^^^ o.a)
/-- `V2.B2` (R225). -/
def v2b2 (o : MixOperands) : Word := o.result ^^^ (o.a ^^^ o.b ^^^ o.c)
/-- `V2.B3` (R226). -/
def v2b3 (o : MixOperands) : Word := o.result ^^^ ((o.a + o.b) * o.c)
/-- `V2.B4` (R227). -/
def v2b4 (o : MixOperands) : Word := o.result ^^^ ((o.b - o.c) * o.a)
/-- `V2.B5` (R228). -/
def v2b5 (o : MixOperands) : Word := o.result ^^^ (o.c - o.a + o.b)
/-- `V2.B6` (R229). -/
def v2b6 (o : MixOperands) : Word := o.result ^^^ (o.a - o.b + o.c)
/-- `V2.B7` (R230). -/
def v2b7 (o : MixOperands) : Word := o.result ^^^ (o.b * o.c + o.a)
/-- `V2.B8` (R231). -/
def v2b8 (o : MixOperands) : Word := o.result ^^^ (o.c * o.a + o.b)
/-- `V2.B9` (R232). -/
def v2b9 (o : MixOperands) : Word := o.result ^^^ (o.a * o.b * o.c)
/-- `V2.B10` (R233). -/
def v2b10 (o : MixOperands) : Word := o.result ^^^ low64 (combine o.a o.b % u128 (o.c ||| 1))
/-- `V2.B11` (R234). -/
def v2b11 (o : MixOperands) : Word :=
  o.result ^^^ low64 (combine o.b o.c % combine (rotl o.result o.r.toNat) (o.a ||| 2))
/-- `V2.B12` (R235). -/
def v2b12 (o : MixOperands) : Word := o.result ^^^ low64 (combine o.c o.a / u128 (o.b ||| 4))
/-- `V2.B13` (R236). -/
def v2b13 (o : MixOperands) : Word :=
  let t1 := combine (rotl o.result o.r.toNat) o.b
  let t2 := combine o.a (o.c ||| 8)
  o.result ^^^ (if t2 < t1 then low64 (t1 / t2) else o.a ^^^ o.b)
/-- `V2.B14` (R237). -/
def v2b14 (o : MixOperands) : Word := o.result ^^^ high64 (combine o.b o.a * u128 o.c)
/-- `V2.B15` (R238). -/
def v2b15 (o : MixOperands) : Word :=
  o.result ^^^ high64 (combine o.a o.c * combine (rotr o.result o.r.toNat) o.b)

/-- The v2 branch table by nibble (30_encoding.md R99). -/
def v2Table : Vector (MixOperands → Word) 16 :=
  #v[v2b0, v2b1, v2b2, v2b3, v2b4, v2b5, v2b6, v2b7, v2b8, v2b9, v2b10, v2b11, v2b12, v2b13, v2b14, v2b15]

/-- A step of `S_V2_STEP` with the table entry `entry` (R222). An operation `V2.B<n>` is this step with its own entry
(log 9). -/
def v2Step (entry : MixOperands → Word) (s : State) : Result :=
  if s.jNat < half2 ∧ s.r.toNat < words2 then
    let o := s.v2Operands
    let result := rotl (entry o) 1
    let t := s.ma (half2 - s.jNat - 1) ^^^ result
    let s' := { s with result := result, r := o.r }
    let s' := s'.setPad64 (half2 - s.jNat - 1) t
    let s' := s'.setPad64 (half2 + s.jNat) (s'.mb half2 s.jNat ^^^ rotr t result.toNat)
    .next (if s.jNat < half2 - 1 then s'.goto .v2Step s.i (s.j + 1) else s'.goto .v2Tail s.i 0)
  else .fault .seqRange

/-- `STEP2` (R222): the step whose entry the nibble selects (30_encoding.md R94). -/
def execStep2 (s : State) : Result := v2Step (v2Table.get (mixNibble s.result s.v2Operands.c).toFin) s

/-- `V2.B0` (R223, R222). -/
def execV2b0 (s : State) : Result := v2Step v2b0 s
/-- `V2.B1` (R224, R222). -/
def execV2b1 (s : State) : Result := v2Step v2b1 s
/-- `V2.B2` (R225, R222). -/
def execV2b2 (s : State) : Result := v2Step v2b2 s
/-- `V2.B3` (R226, R222). -/
def execV2b3 (s : State) : Result := v2Step v2b3 s
/-- `V2.B4` (R227, R222). -/
def execV2b4 (s : State) : Result := v2Step v2b4 s
/-- `V2.B5` (R228, R222). -/
def execV2b5 (s : State) : Result := v2Step v2b5 s
/-- `V2.B6` (R229, R222). -/
def execV2b6 (s : State) : Result := v2Step v2b6 s
/-- `V2.B7` (R230, R222). -/
def execV2b7 (s : State) : Result := v2Step v2b7 s
/-- `V2.B8` (R231, R222). -/
def execV2b8 (s : State) : Result := v2Step v2b8 s
/-- `V2.B9` (R232, R222). -/
def execV2b9 (s : State) : Result := v2Step v2b9 s
/-- `V2.B10` (R233, R222). -/
def execV2b10 (s : State) : Result := v2Step v2b10 s
/-- `V2.B11` (R234, R222). -/
def execV2b11 (s : State) : Result := v2Step v2b11 s
/-- `V2.B12` (R235, R222). -/
def execV2b12 (s : State) : Result := v2Step v2b12 s
/-- `V2.B13` (R236, R222). -/
def execV2b13 (s : State) : Result := v2Step v2b13 s
/-- `V2.B14` (R237, R222). -/
def execV2b14 (s : State) : Result := v2Step v2b14 s
/-- `V2.B15` (R238, R222). -/
def execV2b15 (s : State) : Result := v2Step v2b15 s

/-- `TAIL2` (R240). -/
def execTail2 (s : State) : Result :=
  let t := { s with addrA := s.result, addrB := isqrt s.result }
  .next (if s.iNat < mixIters2 - 1 then t.goto .v2Head (s.i + 1) 0 else t.goto .fin 0 0)

end Sys2Proof.Machine
end

