-- ==== Sys2Proof/Machine/V3Mix.lean ====
section
/-! DEFINITION. The v3 mix (46_v3_mix.md): `HEAD3`, `STEP3`, `V3.B0` to `V3.B15`, `TAIL3`. -/

namespace Sys2Proof.Machine

/-- `HEAD3` (R250): the second index depends on the word just read. -/
def execHead3 (s : State) : Result :=
  let memA := s.ma (mapIndex s.addrA)
  let memB := s.mb half3 (mapIndex (memA ^^^ s.addrB))
  .next ({ s with result := shim 3 memA memB }.goto .v3Step s.i 0)

/-- `V3.B0` (R252). -/
def v3b0 (o : MixOperands) : Word :=
  low64 (combine (o.a + o.i) (isqrt (o.b + o.j)) % u128 (murmurhash3 (o.c ^^^ o.result ^^^ o.i ^^^ o.j) ||| 1))
/-- `V3.B1` (R253). -/
def v3b1 (o : MixOperands) : Word :=
  rotl ((o.c + o.i) % sqrtNz (o.b ||| 2)) (o.i + o.j).toNat * isqrt (o.a + o.j)
/-- `V3.B2` (R254). -/
def v3b2 (o : MixOperands) : Word := (isqrt (o.a + o.i) * isqrt (o.c + o.j)) ^^^ (o.b + o.i + o.j)
/-- `V3.B3` (R255). -/
def v3b3 (o : MixOperands) : Word := (o.a + o.b) * o.c
/-- `V3.B4` (R256). -/
def v3b4 (o : MixOperands) : Word := (o.b - o.c) * o.a
/-- `V3.B5` (R257). -/
def v3b5 (o : MixOperands) : Word := o.c - o.a + o.b
/-- `V3.B6` (R258). -/
def v3b6 (o : MixOperands) : Word := o.a - o.b + o.c
/-- `V3.B7` (R259). -/
def v3b7 (o : MixOperands) : Word := o.b * o.c + o.a
/-- `V3.B8` (R260). -/
def v3b8 (o : MixOperands) : Word := o.c * o.a + o.b
/-- `V3.B9` (R261). -/
def v3b9 (o : MixOperands) : Word := o.a * o.b * o.c
/-- `V3.B10` (R262). -/
def v3b10 (o : MixOperands) : Word := low64 (combine o.a o.b % u128 (o.c ||| 1))
/-- `V3.B11` (R263), with its guard. -/
def v3b11 (o : MixOperands) : Word :=
  let t1 := combine o.b o.c
  let t2 := combine (rotl o.result o.r.toNat) (o.a ||| 2)
  if t1 < t2 then o.c else low64 (t1 % t2)
/-- `V3.B12` (R264). -/
def v3b12 (o : MixOperands) : Word := low64 (combine o.c o.a / u128 (o.b ||| 4))
/-- `V3.B13` (R265). -/
def v3b13 (o : MixOperands) : Word :=
  let t1 := combine (rotl o.result o.r.toNat) o.b
  let t2 := combine o.a (o.c ||| 8)
  if t2 < t1 then low64 (t1 / t2) else o.a ^^^ o.b
/-- `V3.B14` (R266). -/
def v3b14 (o : MixOperands) : Word := high64 (combine o.b o.a * u128 o.c)
/-- `V3.B15` (R267). -/
def v3b15 (o : MixOperands) : Word := high64 (combine o.a o.c * combine (rotr o.result o.r.toNat) o.b)

/-- The v3 branch table by nibble (30_encoding.md R99). -/
def v3Table : Vector (MixOperands → Word) 16 :=
  #v[v3b0, v3b1, v3b2, v3b3, v3b4, v3b5, v3b6, v3b7, v3b8, v3b9, v3b10, v3b11, v3b12, v3b13, v3b14, v3b15]

/-- `t` of `STEP3` (R251), the word it writes to `MA[indexA2]`: the word at `indexT` of the half that `pick_half(v)` chooses,
XOR the new `RESULT`. -/
def State.v3Word (s : State) (v result : Word) : Word :=
  (if pickHalf v then s.mb half3 (mapIndex (v ^^^ s.result)) else s.ma (mapIndex (v ^^^ s.result))) ^^^ result

/-- `indexA2` of `STEP3` (R251). -/
def v3IndexA (t result : Word) : Nat := mapIndex (t ^^^ result ^^^ 0x9e3779b97f4a7c15)

/-- `indexB2` of `STEP3` (R251). -/
def v3IndexB (t result : Word) : Nat :=
  mapIndex (BitVec.ofNat 64 (v3IndexA t result) ^^^ ~~~ result ^^^ 0xd2b74407b1ce6e93)

/-- A step of `S_V3_STEP` with the table entry `entry` (R251). An operation `V3.B<n>` is this step with its own entry
(log 9). -/
def v3Step (entry : MixOperands → Word) (s : State) : Result :=
  if s.r.toNat < words3 then
    let o := s.v3Operands
    let v := entry o
    let result := rotl (v ^^^ s.result) o.r.toNat
    let t := s.v3Word v result
    let indexA2 := v3IndexA t result
    let indexB2 := v3IndexB t result
    let oldA := s.ma indexA2
    let s' := { s with result := result, r := o.r }
    let s' := s'.setPad64 indexA2 t
    let s' := s'.setPad64 (half3 + indexB2) (s'.mb half3 indexB2 ^^^ (oldA ^^^ rotr t (s.iNat + s.jNat)))
    .next (if s.jNat < half3 - 1 then s'.goto .v3Step s.i (s.j + 1) else s'.goto .v3Tail s.i 0)
  else .fault .seqRange

/-- `STEP3` (R251): the step whose entry the nibble selects (30_encoding.md R94). -/
def execStep3 (s : State) : Result := v3Step (v3Table.get (mixNibble s.result s.v3Operands.c).toFin) s

/-- `V3.B0` (R252, R251). -/
def execV3b0 (s : State) : Result := v3Step v3b0 s
/-- `V3.B1` (R253, R251). -/
def execV3b1 (s : State) : Result := v3Step v3b1 s
/-- `V3.B2` (R254, R251). -/
def execV3b2 (s : State) : Result := v3Step v3b2 s
/-- `V3.B3` (R255, R251). -/
def execV3b3 (s : State) : Result := v3Step v3b3 s
/-- `V3.B4` (R256, R251). -/
def execV3b4 (s : State) : Result := v3Step v3b4 s
/-- `V3.B5` (R257, R251). -/
def execV3b5 (s : State) : Result := v3Step v3b5 s
/-- `V3.B6` (R258, R251). -/
def execV3b6 (s : State) : Result := v3Step v3b6 s
/-- `V3.B7` (R259, R251). -/
def execV3b7 (s : State) : Result := v3Step v3b7 s
/-- `V3.B8` (R260, R251). -/
def execV3b8 (s : State) : Result := v3Step v3b8 s
/-- `V3.B9` (R261, R251). -/
def execV3b9 (s : State) : Result := v3Step v3b9 s
/-- `V3.B10` (R262, R251). -/
def execV3b10 (s : State) : Result := v3Step v3b10 s
/-- `V3.B11` (R263, R251). -/
def execV3b11 (s : State) : Result := v3Step v3b11 s
/-- `V3.B12` (R264, R251). -/
def execV3b12 (s : State) : Result := v3Step v3b12 s
/-- `V3.B13` (R265, R251). -/
def execV3b13 (s : State) : Result := v3Step v3b13 s
/-- `V3.B14` (R266, R251). -/
def execV3b14 (s : State) : Result := v3Step v3b14 s
/-- `V3.B15` (R267, R251). -/
def execV3b15 (s : State) : Result := v3Step v3b15 s

/-- `TAIL3` (R270): the second line uses the `ADDRA` that the first one writes. -/
def execTail3 (s : State) : Result :=
  let addrA := modpow s.params s.addrA s.addrB s.result
  let t := { s with addrA := addrA, addrB := isqrt s.result * (s.r + 1) * isqrt addrA }
  .next (if s.iNat < mixIters3 - 1 then t.goto .v3Head (s.i + 1) 0 else t.goto .fin 0 0)

end Sys2Proof.Machine
end

