-- ==== Sys2Proof/Machine/Dispatch.lean ====
section
/-! DEFINITION. The meaning of each operation, one arm per row of the opcode table (30_encoding.md R90, R99). -/

namespace Sys2Proof.Machine

def exec (i : Instr) (s : State) : Host.Outcome State Fault Refusal :=
  match i with
  | .v1b0 => Sys2Proof.Machine.execV1b0 s
  | .v1b1 => Sys2Proof.Machine.execV1b1 s
  | .v1b2 => Sys2Proof.Machine.execV1b2 s
  | .v1b3 => Sys2Proof.Machine.execV1b3 s
  | .v1b4 => Sys2Proof.Machine.execV1b4 s
  | .v1b5 => Sys2Proof.Machine.execV1b5 s
  | .v1b6 => Sys2Proof.Machine.execV1b6 s
  | .v1b7 => Sys2Proof.Machine.execV1b7 s
  | .v1b8 => Sys2Proof.Machine.execV1b8 s
  | .v1b9 => Sys2Proof.Machine.execV1b9 s
  | .v1b10 => Sys2Proof.Machine.execV1b10 s
  | .v1b11 => Sys2Proof.Machine.execV1b11 s
  | .v1b12 => Sys2Proof.Machine.execV1b12 s
  | .v1b13 => Sys2Proof.Machine.execV1b13 s
  | .v1b14 => Sys2Proof.Machine.execV1b14 s
  | .v1b15 => Sys2Proof.Machine.execV1b15 s
  | .v2b0 => Sys2Proof.Machine.execV2b0 s
  | .v2b1 => Sys2Proof.Machine.execV2b1 s
  | .v2b2 => Sys2Proof.Machine.execV2b2 s
  | .v2b3 => Sys2Proof.Machine.execV2b3 s
  | .v2b4 => Sys2Proof.Machine.execV2b4 s
  | .v2b5 => Sys2Proof.Machine.execV2b5 s
  | .v2b6 => Sys2Proof.Machine.execV2b6 s
  | .v2b7 => Sys2Proof.Machine.execV2b7 s
  | .v2b8 => Sys2Proof.Machine.execV2b8 s
  | .v2b9 => Sys2Proof.Machine.execV2b9 s
  | .v2b10 => Sys2Proof.Machine.execV2b10 s
  | .v2b11 => Sys2Proof.Machine.execV2b11 s
  | .v2b12 => Sys2Proof.Machine.execV2b12 s
  | .v2b13 => Sys2Proof.Machine.execV2b13 s
  | .v2b14 => Sys2Proof.Machine.execV2b14 s
  | .v2b15 => Sys2Proof.Machine.execV2b15 s
  | .v3b0 => Sys2Proof.Machine.execV3b0 s
  | .v3b1 => Sys2Proof.Machine.execV3b1 s
  | .v3b2 => Sys2Proof.Machine.execV3b2 s
  | .v3b3 => Sys2Proof.Machine.execV3b3 s
  | .v3b4 => Sys2Proof.Machine.execV3b4 s
  | .v3b5 => Sys2Proof.Machine.execV3b5 s
  | .v3b6 => Sys2Proof.Machine.execV3b6 s
  | .v3b7 => Sys2Proof.Machine.execV3b7 s
  | .v3b8 => Sys2Proof.Machine.execV3b8 s
  | .v3b9 => Sys2Proof.Machine.execV3b9 s
  | .v3b10 => Sys2Proof.Machine.execV3b10 s
  | .v3b11 => Sys2Proof.Machine.execV3b11 s
  | .v3b12 => Sys2Proof.Machine.execV3b12 s
  | .v3b13 => Sys2Proof.Machine.execV3b13 s
  | .v3b14 => Sys2Proof.Machine.execV3b14 s
  | .v3b15 => Sys2Proof.Machine.execV3b15 s
  | .v1f0 => Sys2Proof.Machine.execV1f0 s
  | .v1f1 => Sys2Proof.Machine.execV1f1 s
  | .v1f2 => Sys2Proof.Machine.execV1f2 s
  | .v1f3 => Sys2Proof.Machine.execV1f3 s
  | .absorb => Sys2Proof.Machine.execAbsorb s
  | .kfill => Sys2Proof.Machine.execKfill s
  | .slotld => Sys2Proof.Machine.execSlotld s
  | .perm => Sys2Proof.Machine.execPerm s
  | .slotwb => Sys2Proof.Machine.execSlotwb s
  | .prime => Sys2Proof.Machine.execPrime s
  | .head1 => Sys2Proof.Machine.execHead1 s
  | .br1 => Sys2Proof.Machine.execBr1 s
  | .tail1 => Sys2Proof.Machine.execTail1 s
  | .cfzero => Sys2Proof.Machine.execCfzero s
  | .cfseed => Sys2Proof.Machine.execCfseed s
  | .cfchunk => Sys2Proof.Machine.execCfchunk s
  | .mxsetup => Sys2Proof.Machine.execMxsetup s
  | .head2 => Sys2Proof.Machine.execHead2 s
  | .step2 => Sys2Proof.Machine.execStep2 s
  | .tail2 => Sys2Proof.Machine.execTail2 s
  | .head3 => Sys2Proof.Machine.execHead3 s
  | .step3 => Sys2Proof.Machine.execStep3 s
  | .tail3 => Sys2Proof.Machine.execTail3 s
  | .fin => Sys2Proof.Machine.execFin s
  | .start => Sys2Proof.Machine.execStart s
  | .wrmode ver padded => Sys2Proof.Machine.execWrmode ver padded s
  | .wrlen n => Sys2Proof.Machine.execWrlen n s
  | .wrin d => Sys2Proof.Machine.execWrin d s
  | .rdstatus => Sys2Proof.Machine.execRdstatus s
  | .rddigest d => Sys2Proof.Machine.execRddigest d s
  | .padrd k => Sys2Proof.Machine.execPadrd k s
  | .padwr k w => Sys2Proof.Machine.execPadwr k w s

end Sys2Proof.Machine
end

