-- ==== Sys2Proof/Machine/Fetch.lean ====
section
/-! DEFINITION. Which operation comes next (30_encoding.md R90): the host's access at the head of the inputs (47_finalize_host.md
R295, log 6), else the operation that `SEQ` names (10_state.md R24, R25). There is no instruction memory. And the start
state that makes a given selector come next (log 7). -/

namespace Sys2Proof.Machine

/-- The `STAGE` code (10_state.md R25). -/
def stageCode (st : Stage) : BitVec 5 :=
  match st with
  | .idle => 0
  | .v1Absorb => 1
  | .v1Fill => 2
  | .v1Slotld => 3
  | .v1Perm => 4
  | .v1Slotwb => 5
  | .v1Prime => 6
  | .v1Head => 7
  | .v1Br => 8
  | .v1Tail => 9
  | .cfZero => 10
  | .cfSeed => 11
  | .cfChunk => 12
  | .mxSetup => 13
  | .v2Head => 14
  | .v2Step => 15
  | .v2Tail => 16
  | .v3Head => 17
  | .v3Step => 18
  | .v3Tail => 19
  | .fin => 20
  | .done => 21
  | .fault => 22

/-- The selector of the sequencer's next operation: none in the resting states (30_encoding.md R96); in the middle of a fill
row, which `KFILL` passes within its step, the fill select of the word (R95, log 10); else the `STAGE` code. -/
def State.seqSelector (s : State) : Option Selector :=
  if s.busy = false then none
  else if s.stage = .v1Fill ∧ s.j ≠ 0 then some (.f2 (fillSelect s.fillLeft s.fillRight))
  else some (.seq (stageCode s.stage))

/-- The selector that the next step takes: the host's access, else the sequencer's. The reset selects no operation. -/
def State.nextSelector (s : State) : Option Selector :=
  match s.inputs with
  | .access a :: _ => some (.host a)
  | .reset :: _ => none
  | .tick :: _ => s.seqSelector
  | [] => s.seqSelector

/-- The operation that the next step runs. -/
def State.fetch (s : State) : Option Instr :=
  match s.nextSelector with
  | none => none
  | some sel =>
    match decode sel with
    | .ok i => some i
    | .error _ => none

/-- The step that runs no operation: the reset (70_reset_and_hazards.md R350), a host access that is no command, or a
sequencer at rest (10_state.md R25). -/
def State.noOperation (s : State) : State :=
  match s.inputs with
  | .reset :: _ => s.takeInput.applyReset
  | .access a :: _ => s.takeInput.otherAccess a
  | .tick :: _ => s.takeInput
  | [] => s

/-! ### A given selector as the next operation (log 7) -/

/-- The stages in the order of their codes (10_state.md R25). -/
def stages : List Stage :=
  [.idle, .v1Absorb, .v1Fill, .v1Slotld, .v1Perm, .v1Slotwb, .v1Prime, .v1Head, .v1Br, .v1Tail, .cfZero, .cfSeed,
    .cfChunk, .mxSetup, .v2Head, .v2Step, .v2Tail, .v3Head, .v3Step, .v3Tail, .fin, .done, .fault]

/-- The stage with a given code; the codes that name no stage give the idle one. -/
def stageOf (code : BitVec 5) : Stage := stages.getD code.toNat .idle

/-- The version that a stage belongs to (10_state.md R25); a stage of both v2 and v3 keeps a version that is one of them. -/
def stageVer (st : Stage) (ver : BitVec 2) : BitVec 2 :=
  match st with
  | .idle | .done | .fault => ver
  | .v1Absorb | .v1Fill | .v1Slotld | .v1Perm | .v1Slotwb | .v1Prime | .v1Head | .v1Br | .v1Tail => 1
  | .v2Head | .v2Step | .v2Tail => 2
  | .v3Head | .v3Step | .v3Tail => 3
  | .cfZero | .cfSeed | .cfChunk | .mxSetup | .fin => if mixVer ver then ver else 2

/-- `SEQ` at the first position of a stage, with the version, the number of chunks and the cursor that its operation needs
to run: a chunk count of 36608 gives v2 a chunk of 12 bytes. -/
def State.placeStage (s : State) (st : Stage) : State :=
  let t := { s with inputs := [], ver := stageVer st s.ver }.goto st 0 0
  let t := if st = .cfChunk ∧ s.numChunks = 0 then { t with numChunks := 36608, outOff := 0 } else t
  if memWords t.ver ≤ s.r.toNat then { t with r := 0 } else t

/-- `RESULT` such that the nibble at the first position of the stage is `nib` (30_encoding.md R93, R94). -/
def State.placeNibble (s : State) (nib : BitVec 4) : State :=
  match s.stage with
  | .v2Step | .v3Step => { s with result := rotr (nib.setWidth 64) (s.pad64 s.r.toNat).toNat }
  | _ => { s with result := nib.setWidth 64 }

/-- The middle of fill row 0, with the lanes such that the fill select is `sel` (R95). -/
def State.placeSelect (s : State) (sel : BitVec 2) : State :=
  let t := { s with inputs := [], ver := 1 }.goto .v1Fill 0 1
  { t with kstate := regSet (regSet s.kstate 2 (sel.setWidth 64)) 3 0 }

/-- A state like `s` whose next operation is the one `sel` selects. -/
def State.placeSelector (s : State) (sel : Selector) : State :=
  match sel with
  | .seq w => s.placeStage (stageOf w)
  | .f2 w => s.placeSelect w
  | .host a => { s with inputs := [.access a] }
  | .n4 w =>
    let nib : BitVec 4 := w.extractLsb' 0 4
    match (w.extractLsb' 4 2 : BitVec 2).toNat with
    | 0 => s
    | 1 => (s.placeStage .v1Br).placeNibble nib
    | 2 => (s.placeStage .v2Step).placeNibble nib
    | _ => (s.placeStage .v3Step).placeNibble nib

end Sys2Proof.Machine
end

