-- ==== Sys2Proof/Machine/Step.lean ====
section
/-! DEFINITION. One step of the machine (10_state.md R24, log 6), and the placing of an instruction (log 7). -/

namespace Sys2Proof.Machine

/-- One step: the operation that is fetched, on the state with its input taken off the list; or what happens without
one. -/
def step (s : State) : Host.Outcome State Fault Refusal :=
  match s.fetch with
  | some i => exec i s.takeInput
  | none => .next s.noOperation

/-- The state whose next step runs the operation that the opcode table's word stands for (log 7, log 8); a word that
stands for none changes nothing. -/
def State.withFetchWord (s : State) (nbits w : Nat) : State :=
  match tableSelector nbits w with
  | some sel => s.placeSelector sel
  | none => s

end Sys2Proof.Machine
end

