-- ==== Sys2Proof/Machine/Hash.lean ====
section
/-! DEFINITION. The document's public operations as sequences of host commands (47_finalize_host.md R294): the top-level function
`hash(VER, PADDED, input)`, composed of the meanings of the commands and of the sequencer's steps. -/

namespace Sys2Proof.Machine

/-- What a hash call returns (R294). -/
inductive HashResult where
  /-- The run ended in `DONE`: the 32 bytes of `DIGEST`. -/
  | digest (d : Vector Byte 32)
  /-- The run ended in `FAULT`: `STATUS.ERR`. -/
  | error (code : BitVec 4)
  /-- The host has polled more often than any run has steps (70_reset_and_hazards.md R361) and still reads `BUSY`. -/
  | busy
deriving DecidableEq, Repr

/-- One thing after another: a stop ends the sequence. -/
def andThen {α β : Type} (x : Host.Outcome α Fault Refusal) (f : α → Host.Outcome β Fault Refusal) :
    Host.Outcome β Fault Refusal :=
  match x with
  | .next a => f a
  | .fault e => .fault e
  | .refused e => .refused e

/-- Host commands, one after another (47_finalize_host.md R295). -/
def issue : List Instr → State → Result
  | [], s => .next s
  | c :: cs, s => andThen (exec c s) (issue cs)

/-- The commands before the polling (R294): `WRMODE`, `WRLEN`, a `WRIN` for each byte, `START`. For an input of 2^32 bytes or
more, whose length `LEN` cannot hold and of which the spec says nothing, the length and the indices are written modulo 2^32
(DESIGN CHOICE, log 24). -/
def hashCommands (ver : BitVec 2) (padded : Bool) (input : List Byte) : List Instr :=
  [.wrmode ver padded, .wrlen (BitVec.ofNat 32 input.length)] ++
    input.mapIdx (fun k b => .wrin (.byte (BitVec.ofNat 32 k) b)) ++ [.start]

/-- `RUN` in the word that `RDSTATUS` has returned (R299). -/
def State.readRun (s : State) : BitVec 2 := s.hostData.extractLsb' 0 2

/-- `ERR` in the word that `RDSTATUS` has returned (R299). -/
def State.readErr (s : State) : BitVec 4 := s.hostData.extractLsb' 4 4

/-- `RDSTATUS` until `RUN` is `DONE` or `FAULT` (R294), with a step of the sequencer between two polls (log 23). -/
def pollStatus : (polls : Nat) → State → Result
  | 0, s => exec .rdstatus s
  | n + 1, s =>
    andThen (exec .rdstatus s) fun t => if t.readRun = 1 then andThen (step t) (pollStatus n) else .next t

/-- More steps than any run takes on an input of `len` bytes (70_reset_and_hazards.md R361). -/
def stepBound (len : Nat) : Nat := 171571 + (len + 31) / 32

/-- `RDDIGEST` of the bytes named, in order (R300). -/
def readDigest : List (BitVec 5) → State → Host.Outcome (List Byte) Fault Refusal
  | [], _ => .next []
  | k :: ks, s =>
    andThen (exec (.rddigest (.byte k)) s) fun t =>
      andThen (readDigest ks t) fun bs => .next (t.hostData.setWidth 8 :: bs)

/-- What the host returns once the polling has ended (R294): the digest, or `ERR`. -/
def hashResult (s : State) : Host.Outcome HashResult Fault Refusal :=
  if s.readRun = 2 then
    andThen (readDigest ((List.range 32).map (BitVec.ofNat 5)) s) fun bs => .next (.digest (bytesToVector 32 bs))
  else if s.readRun = 3 then .next (.error s.readErr)
  else .next .busy

/-- `hash(VER, PADDED, input)` on the engine `s` (R294): the host issues this sequence and nothing else. -/
def hash (ver : BitVec 2) (padded : Bool) (input : List Byte) (s : State) : Host.Outcome HashResult Fault Refusal :=
  andThen (issue (hashCommands ver padded input) { s with inputs := [] }) fun t =>
    andThen (pollStatus (stepBound input.length) t) hashResult

/-- `hash_v1(input200, scratchpad)` (R294). -/
def hashV1 (input : Vector Byte 200) (s : State) : Host.Outcome HashResult Fault Refusal := hash 1 false input.toList s

/-- `hash_v1_padded(input)` (R294). -/
def hashV1Padded (input : List Byte) (s : State) : Host.Outcome HashResult Fault Refusal := hash 1 true input s

/-- `hash_v2(input, scratchpad)` (R294); `PADDED`, which v2 does not read, is 0. -/
def hashV2 (input : List Byte) (s : State) : Host.Outcome HashResult Fault Refusal := hash 2 false input s

/-- `hash_v3(input, scratchpad)` (R294); `PADDED`, which v3 does not read, is 0. -/
def hashV3 (input : List Byte) (s : State) : Host.Outcome HashResult Fault Refusal := hash 3 false input s

end Sys2Proof.Machine
end

