-- ==== Sys2Proof/Safety.lean ====
section
/-! DEFINITION. What a run is allowed to be, in the terms of the statements: the invariant of a run, the steps left in it,
what a run depends on, and the effects of the operations as relations between the state before and after. -/

namespace Sys2Proof.Machine

/-! ### The invariant of a run -/

/-- The ranges of `SEQ.I` and `SEQ.J` and the versions of each stage (10_state.md R25). -/
def State.SeqOk (s : State) : Prop :=
  match s.stage with
  | .idle | .done | .fault => s.i = 0 ∧ s.j = 0
  | .v1Absorb | .v1Slotld | .v1Slotwb | .v1Prime => s.ver = 1 ∧ s.i = 0 ∧ s.j = 0
  | .v1Fill => s.ver = 1 ∧ s.iNat ≤ 1310 ∧ s.j = 0
  | .v1Perm => s.ver = 1 ∧ s.i = 0 ∧ s.jNat ≤ 255
  | .v1Head | .v1Tail => s.ver = 1 ∧ s.iNat ≤ 4999 ∧ s.j = 0
  | .v1Br => s.ver = 1 ∧ s.iNat ≤ 4999 ∧ s.jNat ≤ 31
  | .cfZero | .cfSeed | .mxSetup | .fin => (s.ver = 2 ∨ s.ver = 3) ∧ s.i = 0 ∧ s.j = 0
  | .cfChunk => (s.ver = 2 ∨ s.ver = 3) ∧ s.iNat < s.numChunks.toNat ∧ s.j = 0
  | .v2Head | .v2Tail => s.ver = 2 ∧ s.iNat ≤ 2 ∧ s.j = 0
  | .v2Step => s.ver = 2 ∧ s.iNat ≤ 2 ∧ s.jNat ≤ 27455
  | .v3Head | .v3Tail => s.ver = 3 ∧ s.iNat ≤ 1 ∧ s.j = 0
  | .v3Step => s.ver = 3 ∧ s.iNat ≤ 1 ∧ s.jNat ≤ 33983

/-- The linear cursor (10_state.md R33): it counts the steps of the mix, modulo `MEM_WORDS`. -/
def State.CursorOk (s : State) : Prop :=
  match s.stage with
  | .v2Head => s.r.toNat = (27456 * s.iNat) % 54912
  | .v2Step => s.r.toNat = (27456 * s.iNat + s.jNat) % 54912
  | .v2Tail => s.r.toNat = (27456 * (s.iNat + 1)) % 54912
  | .v3Head => s.r.toNat = (33984 * s.iNat) % 67968
  | .v3Step => s.r.toNat = (33984 * s.iNat + s.jNat) % 67968
  | .v3Tail => s.r.toNat = (33984 * (s.iNat + 1)) % 67968
  | _ => True

/-- The length that `START` has checked (47_finalize_host.md R297). -/
def State.LenOk (s : State) : Prop :=
  s.busy = true → s.len.toNat ≤ s.params.inCap ∧
    (s.ver = 1 → (s.padded = false ∧ s.len = 200) ∨ (s.padded = true ∧ s.len.toNat ≤ 120))

/-- The registers of the ChaCha8 fill between two chunks (44_chacha_fill.md R201, R202, R204, R206): with `M = MEM_BYTES`
and `n = NUMCHUNKS`, chunk `k` finds at least its share `M·(n - k)/n` left, and exactly that when `n` divides `M`. -/
def State.FillOk (s : State) : Prop :=
  s.stage = .cfChunk →
    s.numChunks = chunkCount s.len ∧ s.outOff.toNat ≤ memBytes s.ver ∧
    memBytes s.ver * (s.numChunks.toNat - s.iNat) ≤ s.numChunks.toNat * (memBytes s.ver - s.outOff.toNat) ∧
    (s.numChunks.toNat ∣ memBytes s.ver → s.outOff.toNat = s.iNat * (memBytes s.ver / s.numChunks.toNat))

/-- The invariant of a run: an input buffer of at least 200 bytes (00_scope.md R7), the sequencer's ranges, the cursor, the
checked length, the fill's registers, `ERR` a code that is raised (60_exceptions.md R321) and set in `S_FAULT` alone
(10_state.md R27), and the memories in canonical form within their spaces (20_memory.md R60). -/
structure RunInv (s : State) : Prop where
  params : 200 ≤ s.params.inCap
  seq : s.SeqOk
  cursor : s.CursorOk
  len : s.LenOk
  fill : s.FillOk
  errFault : s.err ≠ .none ↔ s.stage = .fault
  errRaised : s.err ≠ .primitiveError ∧ s.err ≠ .invalidHash
  padWf : s.pad.wf
  padRange : ∀ c ∈ s.pad, c.1 < 8 * maxPadWords
  inputWf : s.input.wf
  inputRange : ∀ c ∈ s.input, c.1 < s.params.inCap

/-! ### The length of a run -/

/-- The steps of the v2 mix and of `FIN`, with `MXSETUP` (70_reset_and_hazards.md R361). -/
abbrev mixSteps2 : Nat := 1 + 3 * 27458 + 1

/-- The steps of the v3 mix and of `FIN`, with `MXSETUP` (70_reset_and_hazards.md R361). -/
abbrev mixSteps3 : Nat := 1 + 2 * 33986 + 1

/-- The steps from `MXSETUP` on. -/
def State.mixSteps (s : State) : Nat := if s.ver = 2 then mixSteps2 else mixSteps3

/-- How many sequencer steps the run still takes, if no fault is raised (70_reset_and_hazards.md R361). -/
def State.stepsLeft (s : State) : Nat :=
  match s.stage with
  | .idle | .done | .fault => 0
  | .v1Absorb => 171571
  | .v1Fill => (1311 - s.iNat) + 170259
  | .v1Slotld => 170259
  | .v1Perm => (256 - s.jNat) + 170002
  | .v1Slotwb => 170002
  | .v1Prime => 170001
  | .v1Head => 34 * (5000 - s.iNat)
  | .v1Br => 34 * (4999 - s.iNat) + (33 - s.jNat)
  | .v1Tail => 34 * (4999 - s.iNat) + 1
  | .cfZero => 2 + (chunkCount s.len).toNat + s.mixSteps
  | .cfSeed => 1 + (chunkCount s.len).toNat + s.mixSteps
  | .cfChunk => (s.numChunks.toNat - s.iNat) + s.mixSteps
  | .mxSetup => s.mixSteps
  | .v2Head => 27458 * (3 - s.iNat) + 1
  | .v2Step => 27458 * (2 - s.iNat) + (27456 - s.jNat) + 2
  | .v2Tail => 27458 * (2 - s.iNat) + 2
  | .v3Head => 33986 * (2 - s.iNat) + 1
  | .v3Step => 33986 * (1 - s.iNat) + (33984 - s.jNat) + 2
  | .v3Tail => 33986 * (1 - s.iNat) + 2
  | .fin => 1

/-! ### What a run depends on -/

/-- Two scratchpads agree on their first `n` bytes. -/
def PadAgree (n : Nat) (s t : State) : Prop := ∀ a, a < n → s.pad.read a = t.pad.read a

/-- Two engines have the same input (10_state.md R23): `LEN` and `IN[0 .. LEN)`. -/
def InputAgree (s t : State) : Prop := s.len = t.len ∧ ∀ a, a < s.len.toNat → s.input.read a = t.input.read a

/-- Two runs of engines with the same parameters, at the same position, that agree on all that is read before it is written
(70_reset_and_hazards.md R355, 10_state.md R42). -/
def Live (s t : State) : Prop :=
  s.params = t.params ∧ s.stage = t.stage ∧ s.i = t.i ∧ s.j = t.j ∧ s.ver = t.ver ∧ s.err = t.err ∧
  match s.stage with
  | .idle | .fault => True
  | .v1Absorb | .cfZero => InputAgree s t
  | .v1Fill => s.kstate = t.kstate ∧ PadAgree (200 * s.iNat) s t
  | .v1Slotld | .v1Prime => PadAgree (8 * words1) s t
  | .v1Perm | .v1Slotwb => s.slots = t.slots ∧ PadAgree (8 * words1) s t
  | .v1Head =>
    s.bufA = t.bufA ∧ s.bufB = t.bufB ∧ PadAgree (8 * words1) s t ∧
    ∀ k : Fin 32, 5000 ≤ k.val / 8 + s.iNat → s.digest.get k = t.digest.get k
  | .v1Br | .v1Tail =>
    s.result = t.result ∧ s.bufA = t.bufA ∧ s.bufB = t.bufB ∧ PadAgree (8 * words1) s t ∧
    ∀ k : Fin 32, 5000 ≤ k.val / 8 + s.iNat → s.digest.get k = t.digest.get k
  | .cfSeed => InputAgree s t ∧ PadAgree (memBytes s.ver) s t
  | .cfChunk =>
    InputAgree s t ∧ s.h = t.h ∧ s.nonce = t.nonce ∧ s.outOff = t.outOff ∧ s.numChunks = t.numChunks ∧
    PadAgree (memBytes s.ver) s t
  | .mxSetup | .fin => PadAgree (memBytes s.ver) s t
  | .v2Head => s.addrA = t.addrA ∧ s.addrB = t.addrB ∧ s.r = t.r ∧ PadAgree (8 * words2) s t
  | .v2Step | .v2Tail => s.result = t.result ∧ s.r = t.r ∧ PadAgree (8 * words2) s t
  | .v3Head => s.addrA = t.addrA ∧ s.addrB = t.addrB ∧ s.r = t.r ∧ PadAgree (8 * words3) s t
  | .v3Step | .v3Tail =>
    s.result = t.result ∧ s.addrA = t.addrA ∧ s.addrB = t.addrB ∧ s.r = t.r ∧ PadAgree (8 * words3) s t
  | .done => s.digest = t.digest ∧ PadAgree (memBytes s.ver) s t

/-! ### Numbers that the rules are written in -/

/-- `rotl(x, n)` on numbers (40_arith.md R117). -/
def natRotl (x n : Nat) : Nat := x * 2 ^ (n % 64) % 2 ^ 64 + x / 2 ^ (64 - n % 64)

/-- `rotr(x, n)` on numbers (40_arith.md R117). -/
def natRotr (x n : Nat) : Nat := natRotl x ((64 - n % 64) % 64)

/-- `combine(hi, lo)` on numbers (40_arith.md R119). -/
def natCombine (hi lo : Nat) : Nat := hi * 2 ^ 64 + lo

/-! ### Effects of the operations -/

/-- Every byte of the scratchpad outside word `k` is unchanged. -/
def PadSameOutside (k : Nat) (s t : State) : Prop := ∀ a, (a < 8 * k ∨ 8 * k + 8 ≤ a) → t.pad.read a = s.pad.read a

/-- `BR1`'s effect with the entry's value `v` (43_v1_mix.md R172): `RESULT` and `SEQ` alone change. -/
def V1Effect (v : Nat) (s t : State) : Prop :=
  t = { s with result := t.result, stage := t.stage, i := t.i, j := t.j } ∧ t.result.toNat = v ∧
  t.i = s.i ∧
  (s.jNat < 31 → t.stage = .v1Br ∧ t.jNat = s.jNat + 1) ∧ (s.jNat = 31 → t.stage = .v1Tail ∧ t.j = 0)

/-- `STEP2`'s effect with the entry's value `v` (45_v2_mix.md R222): `RESULT`, `R`, the two words of the write-back and `SEQ`
change, nothing else. -/
def V2Effect (v : Nat) (s t : State) : Prop :=
  t = { s with result := t.result, r := t.r, stage := t.stage, i := t.i, j := t.j, pad := t.pad } ∧
  t.result.toNat = natRotl v 1 ∧ t.r.toNat = (s.r.toNat + 1) % 54912 ∧
  t.pad64 (27456 - s.jNat - 1) = s.pad64 (27456 - s.jNat - 1) ^^^ t.result ∧
  t.pad64 (27456 + s.jNat) =
    s.pad64 (27456 + s.jNat) ^^^ rotr (s.pad64 (27456 - s.jNat - 1) ^^^ t.result) t.result.toNat ∧
  (∀ a, (a < 8 * (27456 - s.jNat - 1) ∨ 8 * (27456 - s.jNat - 1) + 8 ≤ a) →
    (a < 8 * (27456 + s.jNat) ∨ 8 * (27456 + s.jNat) + 8 ≤ a) → t.pad.read a = s.pad.read a) ∧
  t.i = s.i ∧
  (s.jNat < 27455 → t.stage = .v2Step ∧ t.jNat = s.jNat + 1) ∧ (s.jNat = 27455 → t.stage = .v2Tail ∧ t.j = 0)

/-- `STEP3`'s effect with the entry's value `v`, R251's lines after the table (46_v3_mix.md): `RESULT`, `R`, the two words of
the write-back and `SEQ` change, nothing else. -/
def V3Effect (v : Nat) (s t : State) : Prop :=
  let seed : Word := BitVec.ofNat 64 v ^^^ s.result
  let indexT := mapIndex seed
  let w := (if pickHalf (BitVec.ofNat 64 v) then s.pad64 (33984 + indexT) else s.pad64 indexT) ^^^ t.result
  let ia := mapIndex (w ^^^ t.result ^^^ 0x9e3779b97f4a7c15)
  let ib := mapIndex (BitVec.ofNat 64 ia ^^^ ~~~ t.result ^^^ 0xd2b74407b1ce6e93)
  t = { s with result := t.result, r := t.r, stage := t.stage, i := t.i, j := t.j, pad := t.pad } ∧
  t.r.toNat = (s.r.toNat + 1) % 67968 ∧
  t.result.toNat = natRotl (v ^^^ s.result.toNat) t.r.toNat ∧
  ia < 33984 ∧ ib < 33984 ∧
  t.pad64 ia = w ∧
  t.pad64 (33984 + ib) = s.pad64 (33984 + ib) ^^^ (s.pad64 ia ^^^ rotr w (s.iNat + s.jNat)) ∧
  (∀ a, (a < 8 * ia ∨ 8 * ia + 8 ≤ a) → (a < 8 * (33984 + ib) ∨ 8 * (33984 + ib) + 8 ≤ a) →
    t.pad.read a = s.pad.read a) ∧
  t.i = s.i ∧
  (s.jNat < 33983 → t.stage = .v3Step ∧ t.jNat = s.jNat + 1) ∧ (s.jNat = 33983 → t.stage = .v3Tail ∧ t.j = 0)

/-- A fill pass's effect with the select's value `w` (42_v1_fill_permute.md R151): `RAND`, one word of the scratchpad and
`SEQ` change, nothing else. -/
def FillEffect (w : Word) (s t : State) : Prop :=
  t = { s with rand := t.rand, pad := t.pad, stage := t.stage, i := t.i, j := t.j } ∧
  t.rand = (regGet s.kstate s.jNat ^^^ s.rand) ^^^ w ∧ t.pad64 (25 * s.iNat + s.jNat) = t.rand ∧
  PadSameOutside (25 * s.iNat + s.jNat) s t ∧
  (s.jNat + 1 < rowLength s.iNat → t.stage = .v1Fill ∧ t.i = s.i ∧ t.jNat = s.jNat + 1) ∧
  (s.jNat + 1 = rowLength s.iNat → s.iNat < 1310 → t.stage = .v1Fill ∧ t.iNat = s.iNat + 1 ∧ t.j = 0) ∧
  (s.jNat + 1 = rowLength s.iNat → s.iNat = 1310 → t.stage = .v1Slotld ∧ t.i = 0 ∧ t.j = 0)

/-- The select of `KFILL` (30_encoding.md R95, 42_v1_fill_permute.md R152 to R155) on two lanes. -/
def selectValue (left right : Word) : Word :=
  if (left ^^^ right).toNat % 4 = 0 then left &&& right
  else if (left ^^^ right).toNat % 4 = 1 then ~~~ (left &&& right)
  else if (left ^^^ right).toNat % 4 = 2 then ~~~ (left ^^^ right)
  else left ^^^ right

/-- The signed sum of a chunk of `PERM` (42_v1_fill_permute.md R162 (c)): each word of chunk `j` with the sign of its slot. -/
def signedSum (s : State) (j : Nat) (slots : Vector Half 256) : Half :=
  (List.finRange 256).foldl
    (fun acc k => if (slots.get k).getLsbD 31 then acc - s.pad32 (256 * j + k.val) else acc + s.pad32 (256 * j + k.val)) 0

/-- The selection of `PERM`'s reverse pass (42_v1_fill_permute.md R160) over the slots `n - 1` down to 0, with `word` the words
of the chunk as numbers and `indices` the array `INDICES`: the slots visited, in order, and `INDICES` after the pass. -/
def permVisits (word : Nat → Nat) : (n : Nat) → (indices : List (Fin 256)) → List (Fin 256) × List (Fin 256)
  | 0, indices => ([], indices)
  | n + 1, indices =>
    let pos := word n % (n + 1)
    let rest := permVisits word n (indices.set pos (indices.getD n 0))
    (indices.getD pos 0 :: rest.1, rest.2)

/-- One slot update of `PERM` (42_v1_fill_permute.md R160) at slot `k`, on the slots and `TOTALSUM`. -/
def slotUpdate (s : State) (p : Vector Half 256 × Half) (k : Fin 256) : Vector Half 256 × Half :=
  let word := s.pad32 (256 * s.jNat + k.val)
  let s1 := (p.1.get k).getLsbD 31
  let slot := p.1.get k + (if s1 then p.2 + word else p.2 - word)
  let s2 := slot.getLsbD 31
  (p.1.set k.val slot k.isLt,
    if s2 = s1 then p.2 else if s2 then p.2 - 2 * word else p.2 + 2 * word)

end Sys2Proof.Machine
end

