-- ==== Sys2Proof/Certificates/Slice0/Obligations.lean ====
section
/-! DEFINITION. The statements about the model, each a proposition. The docstring of each names the rules it is about. -/

open Sys2Proof Sys2Proof.Machine

/-! ### Encoding -/

/-- Selectors written out from 30_encoding.md R91, R95, R96 and R97 decode to the operations they stand for; the selectors
that name no operation (R92, R96, R100: table 0, the resting stages, codes 23 to 31) to the reason why. -/
def Obligations.DecodeWords : Prop :=
  (decode (.n4 0b010000) = .ok .v1b0 ∧ decode (.n4 0b011111) = .ok .v1b15 ∧ decode (.n4 0b101011) = .ok .v2b11 ∧
    decode (.n4 0b111101) = .ok .v3b13 ∧ decode (.f2 0b10) = .ok .v1f2 ∧ decode (.seq 0b00010) = .ok .kfill ∧
    decode (.seq 0b01100) = .ok .cfchunk ∧ decode (.seq 0b10011) = .ok .tail3 ∧
    decode (.host (.write32 0x00 1)) = .ok .start ∧ decode (.host (.write32 0x04 5)) = .ok (.wrmode 1 true) ∧
    decode (.host (.read32 0x0C)) = .ok .rdstatus ∧ decode (.host (.read8 0x3F)) = .ok (.rddigest (.byte 31))) ∧
  (∀ w : BitVec 6, w.toNat < 16 → decode (.n4 w) = .error .versionZero) ∧
  (∀ w : BitVec 5, w.toNat = 0 ∨ w.toNat = 21 ∨ w.toNat = 22 → decode (.seq w) = .error .resting) ∧
  (∀ w : BitVec 5, 23 ≤ w.toNat → decode (.seq w) = .error .reservedStage)

/-- Decode and encode agree on every well-formed operation, with every operand. -/
def Obligations.DecodeEncode : Prop := ∀ i : Instr, i.wellFormed = true → decode (encode i) = .ok i

/-! ### Step, reset, the invariant -/

/-- A step runs the operation that the next selector decodes to, on the state with this step's input taken off the list. -/
def Obligations.StepRunsDecoded : Prop :=
  ∀ (s : State) (sel : Selector) (i : Instr), s.nextSelector = some sel → decode sel = .ok i →
    step s = exec i { s with inputs := s.inputs.tail }

/-- The operation that each stage names (10_state.md R25), when the host does nothing. -/
def Obligations.StageRunsOperation : Prop :=
  ∀ s : State, s.inputs = [] → (s.stage = .v1Fill → s.j = 0) →
    (s.stage = .v1Absorb → step s = exec .absorb s) ∧ (s.stage = .v1Fill → step s = exec .kfill s) ∧
    (s.stage = .v1Slotld → step s = exec .slotld s) ∧ (s.stage = .v1Perm → step s = exec .perm s) ∧
    (s.stage = .v1Slotwb → step s = exec .slotwb s) ∧ (s.stage = .v1Prime → step s = exec .prime s) ∧
    (s.stage = .v1Head → step s = exec .head1 s) ∧ (s.stage = .v1Br → step s = exec .br1 s) ∧
    (s.stage = .v1Tail → step s = exec .tail1 s) ∧ (s.stage = .cfZero → step s = exec .cfzero s) ∧
    (s.stage = .cfSeed → step s = exec .cfseed s) ∧ (s.stage = .cfChunk → step s = exec .cfchunk s) ∧
    (s.stage = .mxSetup → step s = exec .mxsetup s) ∧ (s.stage = .v2Head → step s = exec .head2 s) ∧
    (s.stage = .v2Step → step s = exec .step2 s) ∧ (s.stage = .v2Tail → step s = exec .tail2 s) ∧
    (s.stage = .v3Head → step s = exec .head3 s) ∧ (s.stage = .v3Step → step s = exec .step3 s) ∧
    (s.stage = .v3Tail → step s = exec .tail3 s) ∧ (s.stage = .fin → step s = exec .fin s) ∧
    (s.stage = .idle ∨ s.stage = .done ∨ s.stage = .fault → step s = .next s)

/-- The reset in any state (70_reset_and_hazards.md R350, R351): `SEQ` and `ERR` as the spec says, `STATUS` reads 0, the
scratchpad is not touched, the engine's parameters stay, and the rest is as `State.reset` has it (the model's choice, log 1,
log 13). -/
def Obligations.ResetInput : Prop :=
  ∀ (s : State) (rest : List Input), s.inputs = .reset :: rest →
    ∃ t, step s = .next t ∧ t.stage = .idle ∧ t.i = 0 ∧ t.j = 0 ∧ t.err = .none ∧ t.statusWord = 0 ∧ t.pad = s.pad ∧
      t = { State.reset with pad := s.pad, params := s.params, inputs := rest, hostData := s.hostData, freeCtr := s.freeCtr }

/-- The state after reset has the invariant; its `IN_CAP` is the suggested default (log 3). -/
def Obligations.ResetInv : Prop := RunInv State.reset

/-- Every step keeps the invariant, whatever the host does. -/
def Obligations.StepKeepsInv : Prop := ∀ s t : State, RunInv s → step s = .next t → RunInv t

/-- In a state with the invariant a step stops in one case alone: the host accesses a scratchpad word that does not exist
while the engine is at rest (U20, log 15). With `VER = 0`, which names no scratchpad size, the bound of 67968 words is the
model's choice (log 14). -/
def Obligations.StepNeverStops : Prop :=
  ∀ s : State, RunInv s →
    (∃ t, step s = .next t) ∨
    (step s = .fault .padRange ∧ s.busy = false ∧
      ∃ k rest, hostPadWords s.ver ≤ k.toNat ∧
        (s.inputs = .access (.padRead k) :: rest ∨ ∃ w, s.inputs = .access (.padWrite k w) :: rest))

/-! ### Whole runs -/

/-- Each sequencer step of a run takes one off the count of the steps left, unless it raises a fault
(70_reset_and_hazards.md R361). -/
def Obligations.StepsCountDown : Prop :=
  ∀ s : State, RunInv s → s.busy = true → s.inputs = [] →
    ∃ t, step s = .next t ∧ t.inputs = [] ∧ (t.stage = .fault ∨ t.stepsLeft + 1 = s.stepsLeft)

/-- The steps that an accepted `START` begins with (R361): 171571, 82378 + n, 67976 + n. -/
def Obligations.StartStepCount : Prop :=
  ∀ s t : State, s.busy = false → exec .start s = .next t → t.stage ≠ .fault →
    t.stepsLeft =
      if s.ver = 1 then 171571
      else if s.ver = 2 then 82378 + (s.len.toNat + 31) / 32
      else 67976 + (s.len.toNat + 31) / 32

/-- Every run ends (R363): after the steps left, the engine is in `DONE` or `FAULT`. -/
def Obligations.RunsTerminate : Prop :=
  ∀ s : State, RunInv s → s.busy = true → s.inputs = [] →
    ∃ t, Host.Core.run Sys2Proof.core s.stepsLeft s = .next t ∧ (t.stage = .done ∨ t.stage = .fault)

/-- A v1 run that `START` accepts is busy for 171571 steps and then in `DONE` without a fault (R361, 60_exceptions.md
R329). -/
def Obligations.V1RunCompletes : Prop :=
  ∀ s t : State, RunInv s → s.busy = false → s.ver = 1 → s.inputs = [] → exec .start s = .next t → t.stage ≠ .fault →
    (∀ n, n < 171571 → ∃ u, Host.Core.run Sys2Proof.core n t = .next u ∧ u.busy = true) ∧
    ∃ u, Host.Core.run Sys2Proof.core 171571 t = .next u ∧ u.stage = .done ∧ u.err = .none

/-- Which v2 and v3 runs complete (44_chacha_fill.md R204 to R206), for every capacity of the input buffer: those whose number
of chunks is 0, or divides `MEM_BYTES` and leaves at least 12 bytes a chunk; of the others, those with less than 12 bytes a
chunk end with `FILL_NONCE_SHORT`, the rest with `FILL_RANGE`. -/
def Obligations.FillOutcome : Prop :=
  ∀ s t : State, RunInv s → s.busy = false → (s.ver = 2 ∨ s.ver = 3) → s.inputs = [] → exec .start s = .next t →
    t.stage ≠ .fault →
    let n := (s.len.toNat + 31) / 32
    ∃ u, Host.Core.run Sys2Proof.core t.stepsLeft t = .next u ∧
      (if n = 0 ∨ (n ∣ memBytes s.ver ∧ 12 ≤ memBytes s.ver / n) then u.stage = .done ∧ u.err = .none
       else if memBytes s.ver / n < 12 then u.stage = .fault ∧ u.err = .fillNonceShort
       else u.stage = .fault ∧ u.err = .fillRange)

/-- Two runs at one position that agree on all that is live there still do after a step (R355, 10_state.md R42). -/
def Obligations.LiveStep : Prop :=
  ∀ s t s' : State, RunInv s → RunInv t → s.inputs = [] → t.inputs = [] → s.busy = true → Live s t → step s = .next s' →
    ∃ t', step t = .next t' ∧ Live s' t'

/-- Purity (R354, R356): two engines at rest with the same parameters (R7), the same `VER`, `LEN` and input bytes, and in v1 the
same `PADDED`, whatever else their registers and scratchpads hold, run in step after `START`, and in `DONE` have the same digest
and the same scratchpad. -/
def Obligations.Purity : Prop :=
  ∀ s t s' t' : State, RunInv s → RunInv t → s.busy = false → t.busy = false → s.inputs = [] → t.inputs = [] →
    s.params = t.params → s.ver = t.ver → (s.ver = 1 → s.padded = t.padded) → InputAgree s t →
    exec .start s = .next s' → exec .start t = .next t' →
    ∀ n, ∃ u v, Host.Core.run Sys2Proof.core n s' = .next u ∧ Host.Core.run Sys2Proof.core n t' = .next v ∧
      u.stage = v.stage ∧ u.err = v.err ∧
      (u.stage = .done → u.digest = v.digest ∧ ∀ a, a < memBytes s.ver → u.pad.read a = v.pad.read a)

/-- The top-level function `hash(VER, PADDED, input)` (47_finalize_host.md R294), on an engine at rest: it never stops and never
returns `busy` (with one sequencer step between two polls, log 23); it returns a digest, or the error of `START` (R297;
60_exceptions.md R322, R324) or of the fill (44_chacha_fill.md R204 to R206); engines with the same parameters return the same,
whatever they hold (R356); and the digest is the one that a run on this input leaves in `DONE`. Inputs of 2^32 bytes or more, which
`LEN` cannot describe, are left out (log 24). -/
def Obligations.HashFunction : Prop :=
  ∀ (s t : State) (ver : BitVec 2) (padded : Bool) (input : List Byte), RunInv s → RunInv t → s.busy = false → t.busy = false →
    s.params = t.params → input.length < 2 ^ 32 →
    let len := input.length
    let n := (len + 31) / 32
    ∃ x, hash ver padded input s = .next x ∧ hash ver padded input t = .next x ∧
      (if ver = 0 then x = .error 4
       else if s.params.inCap < len ∨ (ver = 1 ∧ padded = false ∧ len ≠ 200) ∨ (ver = 1 ∧ padded = true ∧ 120 < len) then
         x = .error 1
       else if ver = 1 ∨ n = 0 ∨ (n ∣ memBytes ver ∧ 12 ≤ memBytes ver / n) then ∃ d, x = .digest d
       else if memBytes ver / n < 12 then x = .error 6
       else x = .error 5) ∧
      ∀ t' u : State, t.inputs = [] → t.ver = ver → t.padded = padded → t.len.toNat = len →
        (∀ k, k < len → t.input.read k = input.getD k 0) → exec .start t = .next t' →
        Host.Core.run Sys2Proof.core t'.stepsLeft t' = .next u → u.stage = .done → x = .digest u.digest

/-! ### The memory's views -/

/-- The byte view is little-endian (20_memory.md R62), and the 32-bit view is its halves (R63). -/
def Obligations.PadViews : Prop :=
  (∀ (s : State) (k m : Nat), m < 8 → s.pad.read (8 * k + m) = (s.pad64 k).extractLsb' (8 * m) 8) ∧
  (∀ (s : State) (k : Nat), s.pad32 (2 * k) = (s.pad64 k).extractLsb' 0 32) ∧
  (∀ (s : State) (k : Nat), s.pad32 (2 * k + 1) = (s.pad64 k).extractLsb' 32 32)

/-- A write through a view changes the bits that it covers and no others, and is read back (20_memory.md R64, R72). -/
def Obligations.PadWrites : Prop :=
  ∀ (s : State),
    (∀ (k : Nat) (w : Word), (s.setPad64 k w).pad64 k = w ∧ PadSameOutside k s (s.setPad64 k w)) ∧
    (∀ (k : Nat) (x : Half), (s.setPad32 k x).pad32 k = x ∧
      ∀ a, (a < 4 * k ∨ 4 * k + 4 ≤ a) → (s.setPad32 k x).pad.read a = s.pad.read a) ∧
    (∀ (k : Nat) (x : Half), ((s.setPad32 (2 * k) x).pad64 k).extractLsb' 0 32 = x ∧
      ((s.setPad32 (2 * k) x).pad64 k).extractLsb' 32 32 = (s.pad64 k).extractLsb' 32 32) ∧
    (∀ (k : Nat) (x : Half), ((s.setPad32 (2 * k + 1) x).pad64 k).extractLsb' 32 32 = x ∧
      ((s.setPad32 (2 * k + 1) x).pad64 k).extractLsb' 0 32 = (s.pad64 k).extractLsb' 0 32) ∧
    (∀ (k m : Nat) (b : Byte), m < 8 → (s.setPadBytes (8 * k + m) [b]).pad.read (8 * k + m) = b ∧
      ∀ a, a ≠ 8 * k + m → (s.setPadBytes (8 * k + m) [b]).pad.read a = s.pad.read a)

/-! ### Helpers -/

/-- `isqrt` is the floor of the square root (40_arith.md R125). -/
def Obligations.IsqrtFloor : Prop :=
  ∀ n : Word, (isqrt n).toNat * (isqrt n).toNat ≤ n.toNat ∧ n.toNat < ((isqrt n).toNat + 1) * ((isqrt n).toNat + 1)

/-- The helpers of v3 on numbers: `map_index`, the multiply-high reduction to a half of the scratchpad (40_arith.md R128),
`murmurhash3` with the shifts 55, 32 and 15 (R127), and `pick_half`, its bit 58 (R129). -/
def Obligations.V3Helpers : Prop :=
  ∀ x : Word,
    (mapIndex x = ((x.toNat ^^^ x.toNat / 2 ^ 33) * 0xff51afd7ed558ccd % 2 ^ 64) * 33984 / 2 ^ 64 ∧ mapIndex x < 33984) ∧
    (let x1 := (x.toNat ^^^ x.toNat / 2 ^ 55) * 0xff51afd7ed558ccd % 2 ^ 64
     let x2 := (x1 ^^^ x1 / 2 ^ 32) * 0xc4ceb9fe1a85ec53 % 2 ^ 64
     (murmurhash3 x).toNat = x2 ^^^ x2 / 2 ^ 15 ∧ (pickHalf x = true ↔ (x2 ^^^ x2 / 2 ^ 15) / 2 ^ 58 % 2 = 1))

/-- `modpow` with a modulus of at least 2 is the power modulo it (40_arith.md R130, which marks its loop as general knowledge
that its source does not give: PRESUMED, log 21), whatever the engine's parameters are. -/
def Obligations.ModpowPower : Prop :=
  ∀ (p : EngineParams) (base exp mod : Word), 2 ≤ mod.toNat →
    (modpow p base exp mod).toNat = base.toNat ^ exp.toNat % mod.toNat

/-- The guard of `V3.B11` changes no value (46_v3_mix.md R263): it is `V2.B11` without the XOR. -/
def Obligations.V3B11Guard : Prop := ∀ o : MixOperands, v3b11 o = v2b11 o ^^^ o.result

/-! ### The v1 fill and permutation -/

/-- `ABSORB` (42_v1_fill_permute.md R150). -/
def Obligations.Absorb : Prop :=
  ∀ s : State, s.len.toNat ≤ 200 →
    ∃ t, exec .absorb s = .next t ∧
      (∀ (k : Fin 25) (m : Nat), m < 8 →
        (t.kstate.get k).extractLsb' (8 * m) 8 = if 8 * k.val + m < s.len.toNat then s.input.read (8 * k.val + m) else 0) ∧
      t = { s with kstate := t.kstate, stage := .v1Fill, i := 0, j := 0 }

/-- `KFILL` (42_v1_fill_permute.md R151): the lanes permuted once, each word of the row chained to the one before it, the
other bytes unchanged. -/
def Obligations.Kfill : Prop :=
  ∀ s : State, s.iNat ≤ 1310 →
    let n := if s.iNat < 1310 then 25 else 18
    let lane : Nat → Word := fun k => regGet (keccakPerm s.kstate) (k % 25)
    ∃ t, exec .kfill s = .next t ∧ t.kstate = keccakPerm s.kstate ∧
      (∀ j, j < n → t.pad64 (25 * s.iNat + j) =
        (lane j ^^^ (if j = 0 then 0 else t.pad64 (25 * s.iNat + j - 1))) ^^^ selectValue (lane (j + 1)) (lane (j + 2))) ∧
      (∀ a, (a < 200 * s.iNat ∨ 200 * s.iNat + 8 * n ≤ a) → t.pad.read a = s.pad.read a) ∧
      t.rand = t.pad64 (25 * s.iNat + n - 1) ∧
      (s.iNat < 1310 → t.stage = .v1Fill ∧ t.iNat = s.iNat + 1 ∧ t.j = 0) ∧
      (s.iNat = 1310 → t.stage = .v1Slotld ∧ t.i = 0 ∧ t.j = 0) ∧
      t = { s with kstate := t.kstate, rand := t.rand, pad := t.pad, stage := t.stage, i := t.i, j := t.j }

/-- The fill selects (42_v1_fill_permute.md R152 to R155), each the pass of `KFILL`'s loop that it is selected for (log 10). -/
def Obligations.FillSelects : Prop :=
  ∀ s : State, s.iNat ≤ 1310 → s.jNat < (if s.iNat < 1310 then 25 else 18) →
    let left := regGet s.kstate (s.jNat + 1)
    let right := regGet s.kstate (s.jNat + 2)
    (∃ t, exec .v1f0 s = .next t ∧ FillEffect (left &&& right) s t) ∧
    (∃ t, exec .v1f1 s = .next t ∧ FillEffect (~~~ (left &&& right)) s t) ∧
    (∃ t, exec .v1f2 s = .next t ∧ FillEffect (~~~ (left ^^^ right)) s t) ∧
    (∃ t, exec .v1f3 s = .next t ∧ FillEffect (left ^^^ right) s t)

/-- `SLOTLD` (42_v1_fill_permute.md R157). -/
def Obligations.Slotld : Prop :=
  ∀ s : State,
    ∃ t, exec .slotld s = .next t ∧ (∀ k : Fin 256, t.slots.get k = s.pad32 (65280 + k.val)) ∧
      t = { s with slots := t.slots, stage := .v1Perm, i := 0, j := 0 }

/-- `PERM` (42_v1_fill_permute.md R158, R159, R162 (c)): it runs, writes no memory, and leaves in `TOTALSUM` the sum of the
chunk with the signs of the slots as they then are. -/
def Obligations.PermSignedSum : Prop :=
  ∀ s : State, s.jNat ≤ 255 →
    ∃ t, exec .perm s = .next t ∧ t.totalSum = signedSum s s.jNat t.slots ∧
      (s.jNat < 255 → t.stage = .v1Perm ∧ t.i = s.i ∧ t.jNat = s.jNat + 1) ∧
      (s.jNat = 255 → s.i = 0 → t.stage = .v1Slotwb ∧ t.i = 0 ∧ t.j = 0) ∧
      t = { s with
        slots := t.slots, indices := t.indices, totalSum := t.totalSum, stage := t.stage, i := t.i, j := t.j }

/-- `PERM`'s reverse pass (42_v1_fill_permute.md R160): it visits each of the 256 slots exactly once, in the order that the
chunk's words select through `INDICES`; the slots and `TOTALSUM` are what the slot updates give in this order, and `INDICES`
is what its replacements leave. -/
def Obligations.PermVisitsOnce : Prop :=
  ∀ s : State, s.jNat ≤ 255 →
    let visits := permVisits (fun k => (s.pad32 (256 * s.jNat + k)).toNat) 256 (List.finRange 256)
    visits.1.length = 256 ∧ visits.1.Nodup ∧
    ∃ t, exec .perm s = .next t ∧
      (t.slots, t.totalSum) = visits.1.foldl (slotUpdate s) (s.slots, signedSum s s.jNat s.slots) ∧
      ∀ k : Fin 256, (t.indices.get k).toNat = (visits.2.getD k.val 0).val

/-- `SLOTWB` (42_v1_fill_permute.md R161). -/
def Obligations.Slotwb : Prop :=
  ∀ s : State,
    ∃ t, exec .slotwb s = .next t ∧ (∀ k : Fin 256, t.pad32 (65280 + k.val) = s.slots.get k) ∧
      (∀ a, (a < 261120 ∨ 262144 ≤ a) → t.pad.read a = s.pad.read a) ∧
      t = { s with pad := t.pad, stage := .v1Prime, i := 0, j := 0 }

/-! ### The v1 mix -/

/-- `PRIME` (43_v1_mix.md R170). -/
def Obligations.Prime : Prop :=
  ∀ s : State,
    ∃ t, exec .prime s = .next t ∧ t.addrA.toNat = (s.pad64 32767).toNat / 2 ^ 15 % 2 ^ 15 ∧
      t.addrB.toNat = (s.pad64 32767).toNat % 2 ^ 15 ∧
      (∀ k : Fin 42, t.bufA.get k = s.pad64 ((t.addrA.toNat + k.val) % 32768)) ∧
      (∀ k : Fin 42, t.bufB.get k = s.pad64 ((t.addrB.toNat + k.val) % 32768)) ∧
      t = { s with
        addrA := t.addrA, addrB := t.addrB, bufA := t.bufA, bufB := t.bufB, stage := .v1Head, i := 0, j := 0 }

/-- `HEAD1` (43_v1_mix.md R171), with the shim of 41_aes_shim.md R146 written out. -/
def Obligations.Head1 : Prop :=
  ∀ s : State,
    let memA := regGet s.bufA (s.iNat % 42)
    let memB := regGet s.bufB (s.iNat % 42)
    let hash1 : Word := BitVec.ofNat 64 (leValue ((aesRound (le64 memB ++ le64 memA) (List.replicate 16 0)).take 8))
    ∃ t, exec .head1 s = .next t ∧ t = { s with result := ~~~ (hash1 ^^^ (memA ^^^ memB)), stage := .v1Br, j := 0 }

/-- `BR1` executes the operation of the v1 table that the nibble of `RESULT` at `2j` selects (30_encoding.md R93,
43_v1_mix.md R172). That the operation executed alone is the whole step of `BR1` is the model's choice (log 9). -/
def Obligations.Br1Selects : Prop :=
  ∀ (s : State) (nib : BitVec 4), s.jNat ≤ 31 → nib.toNat = s.result.toNat / 2 ^ (2 * s.jNat) % 16 →
    exec .br1 s = exec (tableEntry v1Ops nib) s ∧ ∃ t v, exec .br1 s = .next t ∧ V1Effect v s t

/-- The values of `V1.B0` to `V1.B7` (43_v1_mix.md R173 to R180) in the step of `BR1` (R172); that the operation executed alone
is this whole step is the model's choice (log 9). -/
def Obligations.V1TableLow : Prop :=
  ∀ s : State, s.jNat ≤ 31 →
    let x := s.result.toNat
    let a := (regGet s.bufA ((s.jNat + s.iNat) % 42)).toNat
    let b := (regGet s.bufB ((s.jNat + s.iNat) % 42)).toNat
    (∃ t, exec .v1b0 s = .next t ∧ V1Effect (natRotl x s.jNat ^^^ b) s t) ∧
    (∃ t, exec .v1b1 s = .next t ∧ V1Effect (2 ^ 64 - 1 - (natRotl x s.jNat ^^^ a)) s t) ∧
    (∃ t, exec .v1b2 s = .next t ∧ V1Effect (2 ^ 64 - 1 - (x ^^^ a)) s t) ∧
    (∃ t, exec .v1b3 s = .next t ∧ V1Effect (x ^^^ b) s t) ∧
    (∃ t, exec .v1b4 s = .next t ∧ V1Effect (x ^^^ (a + b) % 2 ^ 64) s t) ∧
    (∃ t, exec .v1b5 s = .next t ∧ V1Effect (x ^^^ (a + 2 ^ 64 - b) % 2 ^ 64) s t) ∧
    (∃ t, exec .v1b6 s = .next t ∧ V1Effect (x ^^^ (b + 2 ^ 64 - a) % 2 ^ 64) s t) ∧
    (∃ t, exec .v1b7 s = .next t ∧ V1Effect (x ^^^ (a * b) % 2 ^ 64) s t)

/-- The values of `V1.B8` to `V1.B15` (43_v1_mix.md R181 to R188) in the step of `BR1` (R172); that the operation executed alone
is this whole step is the model's choice (log 9). -/
def Obligations.V1TableHigh : Prop :=
  ∀ s : State, s.jNat ≤ 31 →
    let x := s.result.toNat
    let a := (regGet s.bufA ((s.jNat + s.iNat) % 42)).toNat
    let b := (regGet s.bufB ((s.jNat + s.iNat) % 42)).toNat
    (∃ t, exec .v1b8 s = .next t ∧ V1Effect (x ^^^ (a &&& b)) s t) ∧
    (∃ t, exec .v1b9 s = .next t ∧ V1Effect (x ^^^ (a ||| b)) s t) ∧
    (∃ t, exec .v1b10 s = .next t ∧ V1Effect (x ^^^ (a ^^^ b)) s t) ∧
    (∃ t, exec .v1b11 s = .next t ∧ V1Effect (x ^^^ (a + 2 ^ 64 - x) % 2 ^ 64) s t) ∧
    (∃ t, exec .v1b12 s = .next t ∧ V1Effect (x ^^^ (b + 2 ^ 64 - x) % 2 ^ 64) s t) ∧
    (∃ t, exec .v1b13 s = .next t ∧ V1Effect (x ^^^ (a + x) % 2 ^ 64) s t) ∧
    (∃ t, exec .v1b14 s = .next t ∧ V1Effect (x ^^^ (x + 2 ^ 64 - a) % 2 ^ 64) s t) ∧
    (∃ t, exec .v1b15 s = .next t ∧ V1Effect (x ^^^ (x + 2 ^ 64 - b) % 2 ^ 64) s t)

/-- `TAIL1` (43_v1_mix.md R189): the scratchpad is read before it is written; the last four iterations emit `RESULT`
big-endian. -/
def Obligations.Tail1 : Prop :=
  ∀ s : State, s.iNat ≤ 4999 →
    let lo := s.result.toNat % 2 ^ 15
    let hi := s.result.toNat / 2 ^ 15 % 2 ^ 15
    ∃ t, exec .tail1 s = .next t ∧ t.addrB.toNat = lo ∧ t.addrA.toNat = hi ∧
      (∀ k : Fin 42, t.bufA.get k = if k.val = s.iNat % 42 then s.result else s.bufA.get k) ∧
      (∀ k : Fin 42, t.bufB.get k = if k.val = s.iNat % 42 then s.pad64 lo else s.bufB.get k) ∧
      t.pad64 hi = s.result ∧ PadSameOutside hi s t ∧
      (∀ k : Fin 32, t.digest.get k =
        if k.val / 8 = 4999 - s.iNat then s.result.extractLsb' (8 * (7 - k.val % 8)) 8 else s.digest.get k) ∧
      (s.iNat < 4999 → t.stage = .v1Head ∧ t.iNat = s.iNat + 1 ∧ t.j = 0) ∧
      (s.iNat = 4999 → t.stage = .done ∧ t.i = 0 ∧ t.j = 0) ∧
      t = { s with
        addrA := t.addrA, addrB := t.addrB, bufA := t.bufA, bufB := t.bufB, digest := t.digest, pad := t.pad,
        stage := t.stage, i := t.i, j := t.j }

/-! ### The v2 and v3 fill -/

/-- `CFZERO` (44_chacha_fill.md R200). -/
def Obligations.Cfzero : Prop :=
  ∀ s : State, s.ver = 2 ∨ s.ver = 3 →
    ∃ t, exec .cfzero s = .next t ∧ (∀ a, a < memBytes s.ver → t.pad.read a = 0) ∧
      (∀ a, memBytes s.ver ≤ a → t.pad.read a = s.pad.read a) ∧
      t = { s with pad := t.pad, stage := .cfSeed, i := 0, j := 0 }

/-- `CFSEED` (44_chacha_fill.md R201). -/
def Obligations.Cfseed : Prop :=
  ∀ s : State,
    let hash := blake3 ((List.range s.len.toNat).map fun k => s.input.read k)
    ∃ t, exec .cfseed s = .next t ∧ (∀ k : Fin 32, t.h.get k = hash.getD k.val 0) ∧
      (∀ k : Fin 12, t.nonce.get k = hash.getD k.val 0) ∧ t.outOff = 0 ∧
      t.numChunks.toNat = (s.len.toNat + 31) / 32 ∧
      t.stage = (if (s.len.toNat + 31) / 32 = 0 then .mxSetup else .cfChunk) ∧ t.i = 0 ∧ t.j = 0 ∧
      t = { s with
        h := t.h, nonce := t.nonce, outOff := t.outOff, numChunks := t.numChunks, stage := t.stage, i := t.i, j := t.j }

/-- `CFCHUNK` where the range is inside the scratchpad and at least 12 bytes long (44_chacha_fill.md R202). -/
def Obligations.CfchunkCompletes : Prop :=
  ∀ s : State, (s.ver = 2 ∨ s.ver = 3) → s.iNat < s.numChunks.toNat → s.outOff.toNat ≤ memBytes s.ver →
    let cur := (memBytes s.ver - s.outOff.toNat) / (s.numChunks.toNat - s.iNat)
    let offset := s.iNat * cur
    let chunk := (List.range (min (32 * s.iNat + 32) s.len.toNat - 32 * s.iNat)).map fun k => s.input.read (32 * s.iNat + k)
    let hash := blake3 (s.h.toList ++ chunk ++ List.replicate (32 - chunk.length) 0)
    let ks := chacha8Keystream hash s.nonce.toList cur
    offset + cur ≤ memBytes s.ver → 12 ≤ cur →
    ∃ t, exec .cfchunk s = .next t ∧ (∀ k : Fin 32, t.h.get k = hash.getD k.val 0) ∧
      (∀ m, m < cur → t.pad.read (offset + m) = s.pad.read (offset + m) ^^^ ks.getD m 0) ∧
      (∀ a, (a < offset ∨ offset + cur ≤ a) → t.pad.read a = s.pad.read a) ∧
      t.outOff.toNat = s.outOff.toNat + cur ∧
      (∀ k : Fin 12, t.nonce.get k = t.pad.read (offset + cur - 12 + k.val)) ∧
      (s.iNat + 1 < s.numChunks.toNat → t.stage = .cfChunk ∧ t.iNat = s.iNat + 1 ∧ t.j = 0) ∧
      (s.iNat + 1 = s.numChunks.toNat → t.stage = .mxSetup ∧ t.i = 0 ∧ t.j = 0) ∧
      t = { s with
        h := t.h, pad := t.pad, outOff := t.outOff, nonce := t.nonce, stage := t.stage, i := t.i, j := t.j }

/-- `CFCHUNK`'s faults (44_chacha_fill.md R204, R205; 60_exceptions.md R325, R326, R330): `FILL_RANGE` first; `H` has been
updated to the hash of the 64-byte message, nothing of the chunk is written. -/
def Obligations.CfchunkFaults : Prop :=
  ∀ s : State, (s.ver = 2 ∨ s.ver = 3) → s.iNat < s.numChunks.toNat → s.outOff.toNat ≤ memBytes s.ver →
    let cur := (memBytes s.ver - s.outOff.toNat) / (s.numChunks.toNat - s.iNat)
    let chunk := (List.range (min (32 * s.iNat + 32) s.len.toNat - 32 * s.iNat)).map fun k => s.input.read (32 * s.iNat + k)
    let hash := blake3 (s.h.toList ++ chunk ++ List.replicate (32 - chunk.length) 0)
    (memBytes s.ver < s.iNat * cur + cur →
      ∃ t, exec .cfchunk s = .next t ∧ (∀ k : Fin 32, t.h.get k = hash.getD k.val 0) ∧
        t = { s with h := t.h, err := .fillRange, stage := .fault, i := 0, j := 0 }) ∧
    (s.iNat * cur + cur ≤ memBytes s.ver → cur < 12 →
      ∃ t, exec .cfchunk s = .next t ∧ (∀ k : Fin 32, t.h.get k = hash.getD k.val 0) ∧
        t = { s with h := t.h, err := .fillNonceShort, stage := .fault, i := 0, j := 0 })

/-! ### The v2 mix -/

/-- `MXSETUP` (45_v2_mix.md R220). -/
def Obligations.Mxsetup : Prop :=
  ∀ s : State,
    (s.ver = 2 → exec .mxsetup s = .next { s with
      addrA := s.pad64 54911, addrB := BitVec.ofNat 64 ((s.pad64 27455).toNat / 2 ^ 32), r := 0,
      stage := .v2Head, i := 0, j := 0 }) ∧
    (s.ver = 3 → exec .mxsetup s = .next { s with
      addrA := s.pad64 67967, addrB := BitVec.ofNat 64 ((s.pad64 33983).toNat / 2 ^ 32), r := 0,
      stage := .v3Head, i := 0, j := 0 })

/-- `HEAD2` (45_v2_mix.md R221), with the shim of 41_aes_shim.md R146 and the key `xelishash-pow-v2` (00_scope.md R6)
written out, whose bytes R6 marks as general knowledge (log 21). -/
def Obligations.Head2 : Prop :=
  ∀ s : State,
    let memA := s.pad64 (s.addrA.toNat % 27456)
    let memB := s.pad64 (27456 + s.addrB.toNat % 27456)
    let key : List Byte := [0x78, 0x65, 0x6c, 0x69, 0x73, 0x68, 0x61, 0x73, 0x68, 0x2d, 0x70, 0x6f, 0x77, 0x2d, 0x76, 0x32]
    let hash1 : Word := BitVec.ofNat 64 (leValue ((aesRound (le64 memB ++ le64 memA) key).take 8))
    ∃ t, exec .head2 s = .next t ∧ t = { s with result := ~~~ (hash1 ^^^ (memA ^^^ memB)), stage := .v2Step, j := 0 }

/-- `STEP2` executes the operation of the v2 table that the nibble selects (30_encoding.md R94, 45_v2_mix.md R222).
That the operation executed alone is the whole step of `STEP2` is the model's choice (log 9). -/
def Obligations.Step2Selects : Prop :=
  ∀ (s : State) (nib : BitVec 4), s.jNat < 27456 → s.r.toNat < 54912 →
    nib.toNat = natRotl s.result.toNat (s.pad64 s.r.toNat).toNat % 16 →
    exec .step2 s = exec (tableEntry v2Ops nib) s ∧ ∃ t v, v < 2 ^ 64 ∧ exec .step2 s = .next t ∧ V2Effect v s t

/-- The values of `V2.B0` to `V2.B7` (45_v2_mix.md R223 to R230) in the step of `STEP2` (R222); that the operation executed
alone is this whole step is the model's choice (log 9). -/
def Obligations.V2TableLow : Prop :=
  ∀ s : State, s.jNat < 27456 → s.r.toNat < 54912 →
    let x := s.result.toNat
    let a := (s.pad64 (x % 27456)).toNat
    let b := (s.pad64 (27456 + (2 ^ 64 - 1 - natRotr x s.r.toNat) % 27456)).toNat
    let c := (s.pad64 s.r.toNat).toNat
    (∃ t, exec .v2b0 s = .next t ∧ V2Effect (x ^^^ (natRotl c (s.iNat * s.jNat) ^^^ b)) s t) ∧
    (∃ t, exec .v2b1 s = .next t ∧ V2Effect (x ^^^ (natRotr c (s.iNat * s.jNat) ^^^ a)) s t) ∧
    (∃ t, exec .v2b2 s = .next t ∧ V2Effect (x ^^^ (a ^^^ b ^^^ c)) s t) ∧
    (∃ t, exec .v2b3 s = .next t ∧ V2Effect (x ^^^ ((a + b) * c) % 2 ^ 64) s t) ∧
    (∃ t, exec .v2b4 s = .next t ∧ V2Effect (x ^^^ ((b + 2 ^ 64 - c) * a) % 2 ^ 64) s t) ∧
    (∃ t, exec .v2b5 s = .next t ∧ V2Effect (x ^^^ (c + 2 ^ 64 - a + b) % 2 ^ 64) s t) ∧
    (∃ t, exec .v2b6 s = .next t ∧ V2Effect (x ^^^ (a + 2 ^ 64 - b + c) % 2 ^ 64) s t) ∧
    (∃ t, exec .v2b7 s = .next t ∧ V2Effect (x ^^^ (b * c + a) % 2 ^ 64) s t)

/-- The values of `V2.B8` to `V2.B15` (45_v2_mix.md R231 to R238) in the step of `STEP2` (R222); that the operation executed
alone is this whole step is the model's choice (log 9). -/
def Obligations.V2TableHigh : Prop :=
  ∀ s : State, s.jNat < 27456 → s.r.toNat < 54912 →
    let x := s.result.toNat
    let a := (s.pad64 (x % 27456)).toNat
    let b := (s.pad64 (27456 + (2 ^ 64 - 1 - natRotr x s.r.toNat) % 27456)).toNat
    let c := (s.pad64 s.r.toNat).toNat
    let r := (s.r.toNat + 1) % 54912
    let t1 := natCombine (natRotl x r) b
    let t2 := natCombine a (c ||| 8)
    (∃ t, exec .v2b8 s = .next t ∧ V2Effect (x ^^^ (c * a + b) % 2 ^ 64) s t) ∧
    (∃ t, exec .v2b9 s = .next t ∧ V2Effect (x ^^^ (a * b * c) % 2 ^ 64) s t) ∧
    (∃ t, exec .v2b10 s = .next t ∧ V2Effect (x ^^^ natCombine a b % (c ||| 1)) s t) ∧
    (∃ t, exec .v2b11 s = .next t ∧
      V2Effect (x ^^^ natCombine b c % natCombine (natRotl x r) (a ||| 2) % 2 ^ 64) s t) ∧
    (∃ t, exec .v2b12 s = .next t ∧ V2Effect (x ^^^ natCombine c a / (b ||| 4) % 2 ^ 64) s t) ∧
    (∃ t, exec .v2b13 s = .next t ∧ V2Effect (x ^^^ (if t2 < t1 then t1 / t2 % 2 ^ 64 else a ^^^ b)) s t) ∧
    (∃ t, exec .v2b14 s = .next t ∧ V2Effect (x ^^^ natCombine b a * c % 2 ^ 128 / 2 ^ 64) s t) ∧
    (∃ t, exec .v2b15 s = .next t ∧
      V2Effect (x ^^^ natCombine a c * natCombine (natRotr x r) b % 2 ^ 128 / 2 ^ 64) s t)

/-- `TAIL2` (45_v2_mix.md R240). -/
def Obligations.Tail2 : Prop :=
  ∀ s : State, s.iNat ≤ 2 →
    ∃ t, exec .tail2 s = .next t ∧ t.addrA = s.result ∧ t.addrB.toNat = Nat.sqrt s.result.toNat ∧
      (s.iNat < 2 → t.stage = .v2Head ∧ t.iNat = s.iNat + 1 ∧ t.j = 0) ∧
      (s.iNat = 2 → t.stage = .fin ∧ t.i = 0 ∧ t.j = 0) ∧
      t = { s with addrA := t.addrA, addrB := t.addrB, stage := t.stage, i := t.i, j := t.j }

/-! ### The v3 mix -/

/-- `HEAD3` (46_v3_mix.md R250), with the shim of 41_aes_shim.md R146 and the key `xelishash-pow-v3` (00_scope.md R6) written
out, whose bytes R6 marks as general knowledge (log 21): the second index depends on the word just read. -/
def Obligations.Head3 : Prop :=
  ∀ s : State,
    let memA := s.pad64 (mapIndex s.addrA)
    let memB := s.pad64 (33984 + mapIndex (memA ^^^ s.addrB))
    let key : List Byte := [0x78, 0x65, 0x6c, 0x69, 0x73, 0x68, 0x61, 0x73, 0x68, 0x2d, 0x70, 0x6f, 0x77, 0x2d, 0x76, 0x33]
    let out := aesRound (le64 memB ++ le64 memA) key
    let hash1 : Word := BitVec.ofNat 64 (leValue (out.take 8))
    let hash2 : Word := BitVec.ofNat 64 (leValue (out.drop 8))
    ∃ t, exec .head3 s = .next t ∧ t = { s with result := ~~~ (hash1 ^^^ hash2), stage := .v3Step, j := 0 }

/-- `STEP3` executes the operation of the v3 table that the nibble selects (30_encoding.md R94, 46_v3_mix.md R251).
That the operation executed alone is the whole step of `STEP3` is the model's choice (log 9). -/
def Obligations.Step3Selects : Prop :=
  ∀ (s : State) (nib : BitVec 4), s.jNat < 33984 → s.r.toNat < 67968 →
    nib.toNat = natRotl s.result.toNat (s.pad64 s.r.toNat).toNat % 16 →
    exec .step3 s = exec (tableEntry v3Ops nib) s ∧ ∃ t v, v < 2 ^ 64 ∧ exec .step3 s = .next t ∧ V3Effect v s t

/-- The values of `V3.B0` to `V3.B7` (46_v3_mix.md R252 to R259) in the step of `STEP3` (R251); that the operation executed
alone is this whole step is the model's choice (log 9). -/
def Obligations.V3TableLow : Prop :=
  ∀ s : State, s.jNat < 33984 → s.r.toNat < 67968 →
    let x := s.result.toNat
    let a := (s.pad64 (mapIndex s.result)).toNat
    let b := (s.pad64 (33984 + mapIndex (BitVec.ofNat 64 a ^^^ ~~~ rotr s.result s.r.toNat))).toNat
    let c := (s.pad64 s.r.toNat).toNat
    let i := s.iNat
    let j := s.jNat
    let m := (murmurhash3 (BitVec.ofNat 64 (c ^^^ x ^^^ i ^^^ j))).toNat
    (∃ t, exec .v3b0 s = .next t ∧
      V3Effect (natCombine ((a + i) % 2 ^ 64) (Nat.sqrt ((b + j) % 2 ^ 64)) % (m ||| 1)) s t) ∧
    (∃ t, exec .v3b1 s = .next t ∧
      V3Effect (natRotl ((c + i) % 2 ^ 64 % max (Nat.sqrt (b ||| 2)) 1) (i + j) * Nat.sqrt ((a + j) % 2 ^ 64) % 2 ^ 64)
        s t) ∧
    (∃ t, exec .v3b2 s = .next t ∧
      V3Effect (Nat.sqrt ((a + i) % 2 ^ 64) * Nat.sqrt ((c + j) % 2 ^ 64) ^^^ (b + i + j) % 2 ^ 64) s t) ∧
    (∃ t, exec .v3b3 s = .next t ∧ V3Effect ((a + b) * c % 2 ^ 64) s t) ∧
    (∃ t, exec .v3b4 s = .next t ∧ V3Effect ((b + 2 ^ 64 - c) * a % 2 ^ 64) s t) ∧
    (∃ t, exec .v3b5 s = .next t ∧ V3Effect ((c + 2 ^ 64 - a + b) % 2 ^ 64) s t) ∧
    (∃ t, exec .v3b6 s = .next t ∧ V3Effect ((a + 2 ^ 64 - b + c) % 2 ^ 64) s t) ∧
    (∃ t, exec .v3b7 s = .next t ∧ V3Effect ((b * c + a) % 2 ^ 64) s t)

/-- The values of `V3.B8` to `V3.B15` (46_v3_mix.md R260 to R267) in the step of `STEP3` (R251); that the operation executed
alone is this whole step is the model's choice (log 9). -/
def Obligations.V3TableHigh : Prop :=
  ∀ s : State, s.jNat < 33984 → s.r.toNat < 67968 →
    let x := s.result.toNat
    let a := (s.pad64 (mapIndex s.result)).toNat
    let b := (s.pad64 (33984 + mapIndex (BitVec.ofNat 64 a ^^^ ~~~ rotr s.result s.r.toNat))).toNat
    let c := (s.pad64 s.r.toNat).toNat
    let r := (s.r.toNat + 1) % 67968
    let d1 := natCombine b c
    let d2 := natCombine (natRotl x r) (a ||| 2)
    let q1 := natCombine (natRotl x r) b
    let q2 := natCombine a (c ||| 8)
    (∃ t, exec .v3b8 s = .next t ∧ V3Effect ((c * a + b) % 2 ^ 64) s t) ∧
    (∃ t, exec .v3b9 s = .next t ∧ V3Effect (a * b * c % 2 ^ 64) s t) ∧
    (∃ t, exec .v3b10 s = .next t ∧ V3Effect (natCombine a b % (c ||| 1)) s t) ∧
    (∃ t, exec .v3b11 s = .next t ∧ V3Effect (if d1 < d2 then c else d1 % d2 % 2 ^ 64) s t) ∧
    (∃ t, exec .v3b12 s = .next t ∧ V3Effect (natCombine c a / (b ||| 4) % 2 ^ 64) s t) ∧
    (∃ t, exec .v3b13 s = .next t ∧ V3Effect (if q2 < q1 then q1 / q2 % 2 ^ 64 else a ^^^ b) s t) ∧
    (∃ t, exec .v3b14 s = .next t ∧ V3Effect (natCombine b a * c % 2 ^ 128 / 2 ^ 64) s t) ∧
    (∃ t, exec .v3b15 s = .next t ∧
      V3Effect (natCombine a c * natCombine (natRotr x r) b % 2 ^ 128 / 2 ^ 64) s t)

/-- `TAIL3` (46_v3_mix.md R270): the second line uses the new `ADDRA`. `modpow` is the model's function (40_arith.md R130), whose
two open corners are parameters (log 4). -/
def Obligations.Tail3 : Prop :=
  ∀ s : State, s.iNat ≤ 1 →
    ∃ t, exec .tail3 s = .next t ∧ t.addrA = modpow s.params s.addrA s.addrB s.result ∧
      t.addrB.toNat = Nat.sqrt s.result.toNat * (s.r.toNat + 1) * Nat.sqrt t.addrA.toNat % 2 ^ 64 ∧
      (s.iNat < 1 → t.stage = .v3Head ∧ t.iNat = s.iNat + 1 ∧ t.j = 0) ∧
      (s.iNat = 1 → t.stage = .fin ∧ t.i = 0 ∧ t.j = 0) ∧
      t = { s with addrA := t.addrA, addrB := t.addrB, stage := t.stage, i := t.i, j := t.j }

/-! ### Finalize and the host commands -/

/-- `FIN` (47_finalize_host.md R290). -/
def Obligations.FinDigest : Prop :=
  ∀ s : State, s.ver = 2 ∨ s.ver = 3 →
    let hash := blake3 ((List.range (memBytes s.ver)).map fun a => s.pad.read a)
    ∃ t, exec .fin s = .next t ∧ (∀ k : Fin 32, t.digest.get k = hash.getD k.val 0) ∧
      t = { s with digest := t.digest, stage := .done, i := 0, j := 0 }

/-- `START` (47_finalize_host.md R297) when the engine is not busy: the checks in their order, with the engine's own `IN_CAP`
(00_scope.md R7; its value after reset is the model's choice, log 3), then the first operation of the version. That `DIGEST`,
unspecified then, keeps its bytes is the model's choice (log 19). -/
def Obligations.Start : Prop :=
  ∀ s : State, s.busy = false →
    exec .start s = .next (
      if s.ver = 0 then { s with err := .illegalVer, stage := .fault, i := 0, j := 0 }
      else if s.params.inCap < s.len.toNat then { s with err := .invalidInputLength, stage := .fault, i := 0, j := 0 }
      else if s.ver = 1 ∧ s.padded = false ∧ s.len.toNat ≠ 200 then
        { s with err := .invalidInputLength, stage := .fault, i := 0, j := 0 }
      else if s.ver = 1 ∧ s.padded = true ∧ 120 < s.len.toNat then
        { s with err := .invalidInputLength, stage := .fault, i := 0, j := 0 }
      else { s with err := .none, stage := if s.ver = 1 then .v1Absorb else .cfZero, i := 0, j := 0 })

/-- Host writes that have no effect: while `BUSY` every command that writes (60_exceptions.md R336), and in every state a write
of 0 to `CTRL.START` or a write where the window has no register that takes it (10_state.md R21; U10, U19); which accesses are
no command is the model's reading (log 18). -/
def Obligations.BusyRefusesWrites : Prop :=
  (∀ (s : State) (ver : BitVec 2) (padded : Bool) (n : Half) (d : InWrite) (k : BitVec 32) (w : Word), s.busy = true →
    exec .start s = .next s ∧ exec (.wrmode ver padded) s = .next s ∧ exec (.wrlen n) s = .next s ∧
    exec (.wrin d) s = .next s ∧ exec (.padwr k w) s = .next s) ∧
  (∀ (s : State) (off : BitVec 32) (d : Half) (rest : List Input), s.inputs = .access (.write32 off d) :: rest →
    (off.toNat = 0 ∧ d.toNat % 2 = 0) ∨ (8 < off.toNat ∧ off.toNat < 0x1000) ∨ off.toNat % 4 ≠ 0 →
    step s = .next { s with inputs := rest }) ∧
  (∀ (s : State) (off : BitVec 32) (d : Byte) (rest : List Input), s.inputs = .access (.write8 off d) :: rest →
    off.toNat < 0x1000 → step s = .next { s with inputs := rest })

/-- Host reads whose value is unspecified: those that the engine refuses (60_exceptions.md R336, R337), among them `MODE`, `LEN`
and `IN` while `BUSY`, and those where the window has no register (10_state.md R21; U19), which is the model's reading (log 18).
The value is whatever `v` it is (log 5), and nothing of the engine changes. -/
def Obligations.RefusedReads : Prop :=
  (∀ (s : State) (d : DigestRef) (k : BitVec 32),
    (s.stage ≠ .done → ∃ v, exec (.rddigest d) s = .next { s with hostData := v, freeCtr := s.freeCtr + 1 }) ∧
    (s.busy = true → ∃ v, exec (.padrd k) s = .next { s with hostData := v, freeCtr := s.freeCtr + 1 })) ∧
  (∀ (s : State) (off : BitVec 32) (rest : List Input), s.inputs = .access (.read32 off) :: rest →
    ((s.busy = true ∧ (off.toNat = 4 ∨ off.toNat = 8 ∨ 0x1000 ≤ off.toNat)) ∨ (0x0c < off.toNat ∧ off.toNat < 0x20) ∨
      (0x40 ≤ off.toNat ∧ off.toNat < 0x1000) ∨ 0x1000 + s.params.inCap ≤ off.toNat ∨ off.toNat % 4 ≠ 0) →
    ∃ v, step s = .next { s with inputs := rest, hostData := v, freeCtr := s.freeCtr + 1 }) ∧
  (∀ (s : State) (off : BitVec 32) (rest : List Input), s.inputs = .access (.read8 off) :: rest →
    ((s.busy = true ∧ 0x1000 ≤ off.toNat) ∨ off.toNat < 0x20 ∨ (0x40 ≤ off.toNat ∧ off.toNat < 0x1000) ∨
      0x1000 + s.params.inCap ≤ off.toNat) →
    ∃ v, step s = .next { s with inputs := rest, hostData := v, freeCtr := s.freeCtr + 1 })

/-- `RDSTATUS` (47_finalize_host.md R299; 10_state.md R21, R26): in every state, `RUN` in bits 1:0, `ERR` in bits 7:4, zeros
elsewhere, with the codes of 60_exceptions.md R321. -/
def Obligations.Rdstatus : Prop :=
  ∀ s : State,
    let run := if s.stage = .idle then 0 else if s.stage = .done then 2 else if s.stage = .fault then 3 else 1
    let err := match s.err with
      | .none => 0
      | .invalidInputLength => 1
      | .primitiveError => 2
      | .invalidHash => 3
      | .illegalVer => 4
      | .fillRange => 5
      | .fillNonceShort => 6
    ∃ t, exec .rdstatus s = .next t ∧ t.hostData.toNat = run + 16 * err ∧ t = { s with hostData := t.hostData }

/-- `WRMODE` and `WRLEN` when not busy, and the read-back (47_finalize_host.md R298, R301; 10_state.md R21; log 18): `MODE`
returns `VER` in bits 1:0 and `PADDED` in bit 2, `LEN` its value, `CTRL` 0. -/
def Obligations.WriteModeLen : Prop :=
  (∀ (s : State) (ver : BitVec 2) (padded : Bool) (n : Half), s.busy = false →
    exec (.wrmode ver padded) s = .next { s with ver := ver, padded := padded } ∧
    exec (.wrlen n) s = .next { s with len := n }) ∧
  (∀ (s : State) (off : BitVec 32) (rest : List Input), s.busy = false → s.inputs = .access (.read32 off) :: rest →
    (off.toNat = 0 → step s = .next { s with inputs := rest, hostData := 0 }) ∧
    (off.toNat = 4 → step s = .next { s with
      inputs := rest, hostData := BitVec.ofNat 64 (s.ver.toNat + if s.padded then 4 else 0) }) ∧
    (off.toNat = 8 → step s = .next { s with inputs := rest, hostData := BitVec.ofNat 64 s.len.toNat }))

/-- `WRIN` when not busy, a byte and a 32-bit access, and the read-back of `IN` (47_finalize_host.md R302, R300): a byte at or
beyond the engine's `IN_CAP` is outside the window, and a write of it has no effect. -/
def Obligations.WriteIn : Prop :=
  ∀ s : State, s.busy = false →
    (∀ (k : BitVec 32) (b : Byte), ∃ t, exec (.wrin (.byte k b)) s = .next t ∧
      (k.toNat < s.params.inCap → t.input.read k.toNat = b) ∧
      (∀ a, (a ≠ k.toNat ∨ s.params.inCap ≤ a) → t.input.read a = s.input.read a) ∧ t = { s with input := t.input }) ∧
    (∀ (w : BitVec 30) (v : Half), ∃ t, exec (.wrin (.word w v)) s = .next t ∧
      (∀ m, m < 4 → 4 * w.toNat + m < s.params.inCap → t.input.read (4 * w.toNat + m) = v.extractLsb' (8 * m) 8) ∧
      (∀ a, (a < 4 * w.toNat ∨ 4 * w.toNat + 4 ≤ a ∨ s.params.inCap ≤ a) → t.input.read a = s.input.read a) ∧
      t = { s with input := t.input }) ∧
    (∀ (off : BitVec 32) (rest : List Input), s.inputs = .access (.read8 off) :: rest →
      0x1000 ≤ off.toNat → off.toNat < 0x1000 + s.params.inCap →
      step s = .next { s with
        inputs := rest, hostData := BitVec.ofNat 64 (s.input.read (off.toNat - 0x1000)).toNat }) ∧
    (∀ (off : BitVec 32) (rest : List Input), s.inputs = .access (.read32 off) :: rest →
      0x1000 ≤ off.toNat → off.toNat + 4 ≤ 0x1000 + s.params.inCap → off.toNat % 4 = 0 →
      ∃ t, step s = .next t ∧ t.hostData.toNat < 2 ^ 32 ∧
        (∀ m, m < 4 → t.hostData.extractLsb' (8 * m) 8 = s.input.read (off.toNat - 0x1000 + m)) ∧
        t = { s with inputs := rest, hostData := t.hostData })

/-- `RDDIGEST` in `DONE` (47_finalize_host.md R300): byte `k`, or four bytes packed little-endian. -/
def Obligations.ReadDigest : Prop :=
  ∀ s : State, s.stage = .done →
    (∀ k : BitVec 5, ∃ t, exec (.rddigest (.byte k)) s = .next t ∧
      t.hostData.toNat = (s.digest.get k.toFin).toNat ∧ t = { s with hostData := t.hostData }) ∧
    (∀ w : BitVec 3, ∃ t, exec (.rddigest (.word w)) s = .next t ∧ t.hostData.toNat < 2 ^ 32 ∧
      (∀ m, m < 4 → t.hostData.extractLsb' (8 * m) 8 = regGet s.digest (4 * w.toNat + m)) ∧
      t = { s with hostData := t.hostData })

/-- `PADRD` and `PADWR` when not busy (47_finalize_host.md R303, R304), at a word of the version's scratchpad. -/
def Obligations.PadPort : Prop :=
  ∀ (s : State) (k : BitVec 32) (w : Word), s.busy = false → k.toNat < memWords s.ver →
    exec (.padrd k) s = .next { s with hostData := s.pad64 k.toNat } ∧
    ∃ t, exec (.padwr k w) s = .next t ∧ t.pad64 k.toNat = w ∧ PadSameOutside k.toNat s t ∧ t = { s with pad := t.pad }

/-- Where the meanings stop by name: a scratchpad word that does not exist (U20, log 15), a position, a cursor or a chunk outside
its range (log 16), a version without the operation's constants (log 17). -/
def Obligations.Stops : Prop :=
  (∀ (s : State) (k : BitVec 32) (w : Word), s.busy = false → s.ver ≠ 0 → memWords s.ver ≤ k.toNat →
    exec (.padrd k) s = .fault .padRange ∧ exec (.padwr k w) s = .fault .padRange) ∧
  (∀ s : State, 1310 < s.iNat → exec .kfill s = .fault .seqRange) ∧
  (∀ s : State, 255 < s.jNat → exec .perm s = .fault .seqRange) ∧
  (∀ s : State, 27456 ≤ s.jNat ∨ 54912 ≤ s.r.toNat → exec .step2 s = .fault .seqRange) ∧
  (∀ s : State, 67968 ≤ s.r.toNat → exec .step3 s = .fault .seqRange) ∧
  (∀ s : State, s.ver = 2 ∨ s.ver = 3 → s.numChunks.toNat ≤ s.iNat → exec .cfchunk s = .fault .seqRange) ∧
  (∀ s : State, s.ver = 0 ∨ s.ver = 1 →
    exec .cfzero s = .fault .versionRange ∧ exec .cfchunk s = .fault .versionRange ∧
    exec .mxsetup s = .fault .versionRange ∧ exec .fin s = .fault .versionRange)
end

