-- ==== Sys2Proof/Laws/Arith.lean ====
section
/-! SUPPORT. The arithmetic helpers as numbers (40_arith.md). -/

namespace Sys2Proof.Machine

/-- R117 on numbers. -/
theorem toNat_rotl (x : Word) (n : Nat) : (rotl x n).toNat = natRotl x.toNat n := by
  have hx := x.isLt
  have hm : n % 64 < 64 := Nat.mod_lt _ (by omega)
  simp only [rotl, natRotl, BitVec.toNat_rotateLeft]
  generalize n % 64 = m at hm
  rw [Nat.shiftLeft_eq, Nat.shiftRight_eq_div_pow, Nat.mod_eq_of_lt hm]
  have h1 : x.toNat / 2 ^ (64 - m) < 2 ^ m := by
    apply Nat.div_lt_of_lt_mul; rw [← Nat.pow_add, show 64 - m + m = 64 by omega]; exact hx
  have h2 : ∀ y : Nat, y * 2^m % 2^64 = 2^m * (y % 2^(64-m)) := by
    intro y
    conv_lhs => rw [show 64 = (64 - m) + m by omega, Nat.pow_add]
    rw [Nat.mul_mod_mul_right, Nat.mul_comm]
  rw [h2, ← Nat.two_pow_add_eq_or_of_lt h1]

/-- R117 on numbers. -/
theorem toNat_rotr (x : Word) (n : Nat) : (rotr x n).toNat = natRotr x.toNat n := by
  have : rotr x n = rotl x ((64 - n % 64) % 64) := by
    simp only [rotr, rotl]
    ext i hi
    have hm : n % 64 < 64 := Nat.mod_lt _ (by omega)
    simp only [Nat.mod_mod]
    generalize n % 64 = m at hm
    rw [BitVec.getElem_rotateRight, BitVec.getElem_rotateLeft]
    by_cases h0 : m = 0
    · subst h0; simp [hi]
    · simp only [Nat.mod_eq_of_lt hm, show (64 - m) % 64 = 64 - m by omega]
      by_cases h : i < 64 - m
      · rw [dif_pos (by omega), dif_pos (by omega)]; congr 1; omega
      · rw [dif_neg (by omega), dif_neg (by omega)]
  rw [this, toNat_rotl, natRotr]

/-- The cursor after its advance, on numbers. -/
theorem toNat_nextCursor (n : Nat) (h : n < 2^64) (hn : 0 < n) (r : Word) : (nextCursor n r).toNat = (r.toNat + 1) % n := by
  simp only [nextCursor, BitVec.toNat_ofNat]
  exact Nat.mod_eq_of_lt (Nat.lt_trans (Nat.mod_lt _ hn) h)

theorem toNat_combine (a b : Word) : (combine a b).toNat = natCombine a.toNat b.toNat := by
  have ha := a.isLt; have hb := b.isLt
  simp only [combine, natCombine, BitVec.toNat_or, BitVec.toNat_shiftLeft, BitVec.toNat_setWidth, Nat.shiftLeft_eq]
  rw [Nat.mod_eq_of_lt (show a.toNat < 2^128 by omega), Nat.mod_eq_of_lt (show b.toNat < 2^128 by omega),
    Nat.mod_eq_of_lt (show a.toNat * 2^64 < 2^128 by omega), Nat.mul_comm, ← Nat.two_pow_add_eq_or_of_lt hb]

theorem toNat_low64 (w : Wide) : (low64 w).toNat = w.toNat % 2^64 := by simp [low64, BitVec.toNat_setWidth]

theorem toNat_high64 (w : Wide) : (high64 w).toNat = w.toNat / 2^64 := by
  have := w.isLt
  simp only [high64, BitVec.toNat_setWidth, BitVec.toNat_ushiftRight, Nat.shiftRight_eq_div_pow]
  exact Nat.mod_eq_of_lt (by omega)

theorem toNat_u128 (x : Word) : (u128 x).toNat = x.toNat := by
  have := x.isLt
  simp only [u128, BitVec.toNat_setWidth]; exact Nat.mod_eq_of_lt (by omega)

/-- The mixing steps of `murmurhash3` and `map_index` (R127, R128). -/
theorem toNat_xorShift (x : Word) (n : Nat) : (x ^^^ x >>> n).toNat = x.toNat ^^^ x.toNat / 2 ^ n := by
  rw [BitVec.toNat_xor, BitVec.toNat_ushiftRight, Nat.shiftRight_eq_div_pow]

theorem toNat_xorShift_mul (x c : Word) (n : Nat) :
    ((x ^^^ x >>> n) * c).toNat = (x.toNat ^^^ x.toNat / 2 ^ n) * c.toNat % 2 ^ 64 := by
  rw [BitVec.toNat_mul, toNat_xorShift]

/-- `map_index` gives an index into a half (R128). -/
theorem mapIndex_lt (x : Word) : mapIndex x < 33984 := by
  simp only [mapIndex, mapIndexIn, high64, u128, half3]
  generalize (x ^^^ x >>> 33) * 0xff51afd7ed558ccd = y
  have := y.isLt
  rw [BitVec.toNat_setWidth, BitVec.toNat_ushiftRight, BitVec.toNat_mul, BitVec.toNat_setWidth, BitVec.toNat_ofNat, Nat.shiftRight_eq_div_pow, Nat.mod_eq_of_lt (show y.toNat < 2^128 by omega), Nat.mod_eq_of_lt (show 33984 < 2^128 by decide), Nat.mod_eq_of_lt (show y.toNat * 33984 < 2^128 by omega)]
  exact lt_of_le_of_lt (Nat.mod_le _ _) (by omega)

theorem v3IndexA_lt (t r : Word) : v3IndexA t r < 33984 := mapIndex_lt _
theorem v3IndexB_lt (t r : Word) : v3IndexB t r < 33984 := mapIndex_lt _

end Sys2Proof.Machine
end

