-- ==== Sys2Proof/Laws/Hash.lean ====
section
/-! SUPPORT. What the parts of the top-level function `hash` (47_finalize_host.md R294) do. -/

namespace Sys2Proof.Machine

@[simp] theorem andThen_next {α β : Type} (a : α) (f : α → Host.Outcome β Fault Refusal) : andThen (.next a) f = f a := rfl

@[simp] theorem andThen_fault {α β : Type} (e : Fault) (f : α → Host.Outcome β Fault Refusal) :
    andThen (.fault e) f = .fault e := rfl

@[simp] theorem andThen_refused {α β : Type} (e : Refusal) (f : α → Host.Outcome β Fault Refusal) :
    andThen (.refused e) f = .refused e := rfl

/-- A sequence answers a next value exactly where both parts do. -/
theorem andThen_eq_next {α β : Type} {x : Host.Outcome α Fault Refusal} {f : α → Host.Outcome β Fault Refusal} {b : β} :
    andThen x f = .next b ↔ ∃ a, x = .next a ∧ f a = .next b := by
  cases x <;> simp

@[simp] theorem issue_nil (s : State) : issue [] s = .next s := rfl

@[simp] theorem issue_cons (c : Instr) (cs : List Instr) (s : State) : issue (c :: cs) s = andThen (exec c s) (issue cs) := rfl

/-- Commands in two parts. -/
theorem issue_append (cs ds : List Instr) (s : State) : issue (cs ++ ds) s = andThen (issue cs s) (issue ds) := by
  induction cs generalizing s with
  | nil => rfl
  | cons c cs ih =>
    simp only [List.cons_append, issue_cons]
    cases exec c s <;> simp [ih]

/-- Once the run has ended, polling returns (R294, R299). -/
theorem pollStatus_of_not_busy (n : Nat) (s : State) (h : (s.hostRead (s.statusWord.setWidth 64)).readRun ≠ 1) :
    pollStatus n s = .next (s.hostRead (s.statusWord.setWidth 64)) := by
  cases n with
  | zero => rfl
  | succ n => simp only [pollStatus, exec, execRdstatus, andThen_next, if_neg h]

/-- While the run goes on, polling lets the sequencer take a step (R294, R299). -/
theorem pollStatus_of_busy (n : Nat) (s : State) (h : (s.hostRead (s.statusWord.setWidth 64)).readRun = 1) :
    pollStatus (n + 1) s = andThen (step (s.hostRead (s.statusWord.setWidth 64))) (pollStatus n) := by
  simp only [pollStatus, exec, execRdstatus, andThen_next, if_pos h]

end Sys2Proof.Machine
end

