-- ==== Sys2Proof/Laws/Memory.lean ====
section
/-! SUPPORT. The laws of the byte memory: what a byte reads as after each memory operation, and that each operation keeps the
canonical form. -/

namespace Sys2Proof.Machine

/-! ### Reading -/

@[simp] theorem Memory.read_nil (a : Nat) : Memory.read [] a = 0 := rfl

theorem Memory.read_cons (c : Host.Cell) (m : Memory) (a : Nat) :
    Memory.read (c :: m) a = if c.1 = a then c.2 else Memory.read m a := rfl

/-- A memory that lists nothing at `a` reads 0 there. -/
theorem Memory.read_eq_zero {m : Memory} {a : Nat} (h : ∀ c ∈ m, c.1 ≠ a) : m.read a = 0 := by
  induction m with
  | nil => rfl
  | cons c t ih => simp_all [Memory.read_cons]

theorem Memory.read_append_right {m n : Memory} {a : Nat} (h : ∀ c ∈ m, c.1 ≠ a) :
    Memory.read (m ++ n) a = n.read a := by
  induction m with
  | nil => rfl
  | cons c t ih => simp_all [Memory.read_cons]

theorem Memory.read_append_left {m n : Memory} {a : Nat} (h : ∀ c ∈ n, c.1 ≠ a) :
    Memory.read (m ++ n) a = m.read a := by
  induction m with
  | nil => exact Memory.read_eq_zero h
  | cons c t ih => simp [Memory.read_cons, ih]

/-- Filtering by a test of the address keeps the bytes at the addresses that pass it. -/
theorem Memory.read_filter (p : Nat → Bool) (m : Memory) (a : Nat) :
    Memory.read (m.filter fun c => p c.1) a = if p a then m.read a else 0 := by
  induction m with
  | nil => simp
  | cons c t ih =>
    by_cases hc : p c.1 = true
    · by_cases ha : c.1 = a
      · subst ha; simp [Memory.read_cons, hc]
      · simp [Memory.read_cons, hc, ha, ih]
    · by_cases ha : c.1 = a
      · subst ha; simp [hc, ih]
      · simp [Memory.read_cons, hc, ha, ih]

theorem Memory.mem_cells {a : Nat} {bs : List Byte} {c : Host.Cell} (h : c ∈ Memory.cells a bs) :
    a ≤ c.1 ∧ c.1 < a + bs.length ∧ c.2 ≠ 0 := by
  induction bs generalizing a with
  | nil => simp [Memory.cells] at h
  | cons b t ih =>
    simp only [Memory.cells] at h
    split at h
    · have := ih h
      exact ⟨by omega, by simp only [List.length_cons]; omega, this.2.2⟩
    · rename_i hb
      rcases List.mem_cons.1 h with rfl | h
      · exact ⟨Nat.le_refl _, by simp, hb⟩
      · have := ih h
        exact ⟨by omega, by simp only [List.length_cons]; omega, this.2.2⟩

theorem Memory.read_cells (a : Nat) (bs : List Byte) (x : Nat) :
    Memory.read (Memory.cells a bs) x = if a ≤ x then bs.getD (x - a) 0 else 0 := by
  induction bs generalizing a with
  | nil => simp [Memory.cells]
  | cons b t ih =>
    rcases Nat.lt_trichotomy a x with h | h | h
    · obtain ⟨d, rfl⟩ : ∃ d, x = a + 1 + d := ⟨x - (a + 1), by omega⟩
      have e : a + 1 + d - a = d + 1 := by omega
      simp only [Memory.cells]
      split <;> simp [Memory.read_cons, ih, e, show a ≤ a + 1 + d by omega, show a ≠ a + 1 + d by omega]
    · subst h
      simp only [Memory.cells]
      split
      · simp [*]
      · simp [Memory.read_cons]
    · simp only [Memory.cells]
      split <;> simp [Memory.read_cons, ih, show ¬ a ≤ x by omega, show ¬ a + 1 ≤ x by omega, show a ≠ x by omega]

/-- What a byte reads as after a byte string is written (20_memory.md R64, R65). -/
theorem Memory.read_writeBytes (m : Memory) (a : Nat) (bs : List Byte) (x : Nat) :
    (m.writeBytes a bs).read x = if a ≤ x ∧ x < a + bs.length then bs.getD (x - a) 0 else m.read x := by
  have f1 : ∀ c ∈ m.filter (fun c => decide (c.1 < a)), c.1 < a := by simp
  have f3 : ∀ c ∈ m.filter (fun c => decide (a + bs.length ≤ c.1)), a + bs.length ≤ c.1 := by simp
  have r1 := Memory.read_filter (fun y => decide (y < a)) m x
  have r3 := Memory.read_filter (fun y => decide (a + bs.length ≤ y)) m x
  simp only [decide_eq_true_eq] at r1 r3
  simp only [Memory.writeBytes]
  rcases Nat.lt_or_ge x a with hx | hx
  · rw [Memory.read_append_left fun c hc => by have := f3 c hc; omega,
      Memory.read_append_left fun c hc => by have := Memory.mem_cells hc; omega, r1, if_pos hx, if_neg (by omega)]
  · rcases Nat.lt_or_ge x (a + bs.length) with hl | hl
    · rw [Memory.read_append_left fun c hc => by have := f3 c hc; omega,
        Memory.read_append_right fun c hc => by have := f1 c hc; omega, Memory.read_cells, if_pos hx, if_pos ⟨hx, hl⟩]
    · rw [Memory.read_append_right, r3, if_pos hl, if_neg (by omega)]
      intro c hc
      rcases List.mem_append.1 hc with hc | hc
      · have := f1 c hc; omega
      · have := Memory.mem_cells hc; omega

/-- A byte outside the bytes written is unchanged. -/
theorem Memory.read_writeBytes_outside (m : Memory) (a : Nat) (bs : List Byte) {x : Nat}
    (h : x < a ∨ a + bs.length ≤ x) : (m.writeBytes a bs).read x = m.read x := by
  rw [Memory.read_writeBytes, if_neg (by omega)]

/-- A byte inside the bytes written reads as written. -/
theorem Memory.read_writeBytes_inside (m : Memory) (a : Nat) (bs : List Byte) {k : Nat} (h : k < bs.length) :
    (m.writeBytes a bs).read (a + k) = bs.getD k 0 := by
  rw [Memory.read_writeBytes, if_pos (by omega), Nat.add_sub_cancel_left]

@[simp] theorem Memory.length_readBytes (m : Memory) (a n : Nat) : (m.readBytes a n).length = n := by
  simp [Memory.readBytes]

theorem Memory.getD_readBytes (m : Memory) (a n k : Nat) :
    (m.readBytes a n).getD k 0 = if k < n then m.read (a + k) else 0 := by
  by_cases h : k < n <;> simp [Memory.readBytes, List.getD_eq_getElem?_getD, h]

/-- Reading depends on the bytes read alone. -/
theorem Memory.readBytes_congr {m n : Memory} {a l : Nat} (h : ∀ k, k < l → m.read (a + k) = n.read (a + k)) :
    m.readBytes a l = n.readBytes a l := by
  simp only [Memory.readBytes]
  exact List.map_congr_left fun k hk => h k (List.mem_range.1 hk)

/-! ### The canonical form -/

theorem Memory.wf_nil : Memory.wf [] := ⟨List.Pairwise.nil, by simp⟩

theorem Memory.wf_filter {m : Memory} (h : m.wf) (p : Host.Cell → Bool) : Memory.wf (m.filter p) :=
  ⟨h.1.filter p, fun c hc => h.2 c (List.mem_filter.1 hc).1⟩

theorem Memory.wf_cells (a : Nat) (bs : List Byte) : Memory.wf (Memory.cells a bs) := by
  refine ⟨?_, fun c hc => (Memory.mem_cells hc).2.2⟩
  induction bs generalizing a with
  | nil => simp [Memory.cells]
  | cons b t ih =>
    simp only [Memory.cells]
    split
    · exact ih _
    · refine List.pairwise_cons.2 ⟨fun c hc => ?_, ih _⟩
      have := Memory.mem_cells hc
      show a < c.1
      omega

/-- A write keeps the canonical form. -/
theorem Memory.wf_writeBytes {m : Memory} (h : m.wf) (a : Nat) (bs : List Byte) : (m.writeBytes a bs).wf := by
  refine ⟨?_, ?_⟩
  · simp only [Memory.writeBytes]
    refine List.pairwise_append.2 ⟨List.pairwise_append.2 ⟨h.1.filter _, (Memory.wf_cells a bs).1, ?_⟩, h.1.filter _, ?_⟩
    · intro x hx y hy
      have := Memory.mem_cells hy
      simp at hx; omega
    · intro x hx y hy
      simp only [List.mem_filter, decide_eq_true_eq] at hy
      rcases List.mem_append.1 hx with hx | hx
      · simp at hx; omega
      · have := Memory.mem_cells hx; omega
  · intro c hc
    simp only [Memory.writeBytes, List.mem_append, List.mem_filter] at hc
    rcases hc with (hc | hc) | hc
    · exact h.2 c hc.1
    · exact (Memory.mem_cells hc).2.2
    · exact h.2 c hc.1

/-- A write lists no address beyond those listed before and those written. -/
theorem Memory.range_writeBytes {m : Memory} {n : Nat} (h : ∀ c ∈ m, c.1 < n) {a : Nat} {bs : List Byte}
    (hb : a + bs.length ≤ n) : ∀ c ∈ m.writeBytes a bs, c.1 < n := by
  intro c hc
  simp only [Memory.writeBytes, List.mem_append, List.mem_filter] at hc
  rcases hc with (hc | hc) | hc
  · exact h c hc.1
  · have := Memory.mem_cells hc; omega
  · exact h c hc.1

/-- A memory in canonical form lists exactly the bytes that do not read 0. -/
theorem Memory.mem_iff_read {m : Memory} (h : m.wf) (a : Nat) (b : Byte) : (a, b) ∈ m ↔ b ≠ 0 ∧ m.read a = b := by
  induction m with
  | nil =>
    simp only [List.not_mem_nil, Memory.read_nil, false_iff]
    rintro ⟨h1, h2⟩; exact h1 h2.symm
  | cons c t ih =>
    have ht : Memory.wf t := ⟨(List.pairwise_cons.1 h.1).2, fun c hc => h.2 c (List.mem_cons_of_mem _ hc)⟩
    have hlt := (List.pairwise_cons.1 h.1).1
    rw [List.mem_cons, ih ht, Memory.read_cons]
    by_cases hc : c.1 = a
    · have h0 : Memory.read t a = 0 := Memory.read_eq_zero fun d hd => by have := hlt d hd; omega
      have hc2 := h.2 c List.mem_cons_self
      rw [if_pos hc, h0]
      constructor
      · rintro (rfl | ⟨h1, h2⟩)
        · exact ⟨hc2, rfl⟩
        · exact absurd h2.symm h1
      · rintro ⟨-, rfl⟩; exact .inl (by rw [← hc])
    · rw [if_neg hc]
      constructor
      · rintro (rfl | h1)
        · exact absurd rfl hc
        · exact h1
      · exact .inr

/-- Two memories in canonical form that read alike are the same data. -/
theorem Memory.ext_read {m n : Memory} (hm : m.wf) (hn : n.wf) (h : ∀ a, m.read a = n.read a) : m = n := by
  have hp : ∀ {l : Memory}, l.wf → l.Pairwise (fun x y => x.1 ≤ y.1) :=
    fun hl => hl.1.imp fun h => Nat.le_of_lt h
  have nd : ∀ {l : Memory}, l.wf → l.Nodup := fun hl =>
    hl.1.imp fun hxy => by rintro rfl; exact Nat.lt_irrefl _ hxy
  refine List.Perm.eq_of_pairwise (le := fun x y : Host.Cell => x.1 ≤ y.1) ?_ (hp hm) (hp hn) ?_
  · rintro ⟨a, b⟩ ⟨a', b'⟩ h1 h2 h3 h4
    obtain rfl : a = a' := Nat.le_antisymm h3 h4
    rw [Memory.mem_iff_read hm] at h1
    rw [Memory.mem_iff_read hn] at h2
    rw [← h1.2, ← h2.2, h]
  · rw [List.perm_ext_iff_of_nodup (nd hm) (nd hn)]
    rintro ⟨a, b⟩
    rw [Memory.mem_iff_read hm, Memory.mem_iff_read hn, h]

/-- The memories after reset have the canonical form. -/
theorem State.reset_pad_wf : State.reset.pad.wf ∧ State.reset.input.wf := ⟨Memory.wf_nil, Memory.wf_nil⟩

end Sys2Proof.Machine
end

