-- ==== Sys2Proof/Laws/State.lean ====
section
/-! SUPPORT. What each update of the state leaves in each field: one lemma per field per update. -/

namespace Sys2Proof.Machine

/-! ### `setPad64` -/

@[simp] theorem State.setPad64_ver (s : State) (k : Nat) (w : Word) : (s.setPad64 k w).ver = s.ver := rfl
@[simp] theorem State.setPad64_padded (s : State) (k : Nat) (w : Word) : (s.setPad64 k w).padded = s.padded := rfl
@[simp] theorem State.setPad64_len (s : State) (k : Nat) (w : Word) : (s.setPad64 k w).len = s.len := rfl
@[simp] theorem State.setPad64_err (s : State) (k : Nat) (w : Word) : (s.setPad64 k w).err = s.err := rfl
@[simp] theorem State.setPad64_digest (s : State) (k : Nat) (w : Word) : (s.setPad64 k w).digest = s.digest := rfl
@[simp] theorem State.setPad64_input (s : State) (k : Nat) (w : Word) : (s.setPad64 k w).input = s.input := rfl
@[simp] theorem State.setPad64_stage (s : State) (k : Nat) (w : Word) : (s.setPad64 k w).stage = s.stage := rfl
@[simp] theorem State.setPad64_i (s : State) (k : Nat) (w : Word) : (s.setPad64 k w).i = s.i := rfl
@[simp] theorem State.setPad64_j (s : State) (k : Nat) (w : Word) : (s.setPad64 k w).j = s.j := rfl
@[simp] theorem State.setPad64_result (s : State) (k : Nat) (w : Word) : (s.setPad64 k w).result = s.result := rfl
@[simp] theorem State.setPad64_addrA (s : State) (k : Nat) (w : Word) : (s.setPad64 k w).addrA = s.addrA := rfl
@[simp] theorem State.setPad64_addrB (s : State) (k : Nat) (w : Word) : (s.setPad64 k w).addrB = s.addrB := rfl
@[simp] theorem State.setPad64_r (s : State) (k : Nat) (w : Word) : (s.setPad64 k w).r = s.r := rfl
@[simp] theorem State.setPad64_kstate (s : State) (k : Nat) (w : Word) : (s.setPad64 k w).kstate = s.kstate := rfl
@[simp] theorem State.setPad64_rand (s : State) (k : Nat) (w : Word) : (s.setPad64 k w).rand = s.rand := rfl
@[simp] theorem State.setPad64_slots (s : State) (k : Nat) (w : Word) : (s.setPad64 k w).slots = s.slots := rfl
@[simp] theorem State.setPad64_indices (s : State) (k : Nat) (w : Word) : (s.setPad64 k w).indices = s.indices := rfl
@[simp] theorem State.setPad64_totalSum (s : State) (k : Nat) (w : Word) : (s.setPad64 k w).totalSum = s.totalSum := rfl
@[simp] theorem State.setPad64_bufA (s : State) (k : Nat) (w : Word) : (s.setPad64 k w).bufA = s.bufA := rfl
@[simp] theorem State.setPad64_bufB (s : State) (k : Nat) (w : Word) : (s.setPad64 k w).bufB = s.bufB := rfl
@[simp] theorem State.setPad64_h (s : State) (k : Nat) (w : Word) : (s.setPad64 k w).h = s.h := rfl
@[simp] theorem State.setPad64_nonce (s : State) (k : Nat) (w : Word) : (s.setPad64 k w).nonce = s.nonce := rfl
@[simp] theorem State.setPad64_outOff (s : State) (k : Nat) (w : Word) : (s.setPad64 k w).outOff = s.outOff := rfl
@[simp] theorem State.setPad64_numChunks (s : State) (k : Nat) (w : Word) : (s.setPad64 k w).numChunks = s.numChunks := rfl
@[simp] theorem State.setPad64_params (s : State) (k : Nat) (w : Word) : (s.setPad64 k w).params = s.params := rfl
@[simp] theorem State.setPad64_pad (s : State) (k : Nat) (w : Word) : (s.setPad64 k w).pad = s.pad.writeBytes (8 * k) (le64 w) := rfl
@[simp] theorem State.setPad64_inputs (s : State) (k : Nat) (w : Word) : (s.setPad64 k w).inputs = s.inputs := rfl
@[simp] theorem State.setPad64_hostData (s : State) (k : Nat) (w : Word) : (s.setPad64 k w).hostData = s.hostData := rfl
@[simp] theorem State.setPad64_freeCtr (s : State) (k : Nat) (w : Word) : (s.setPad64 k w).freeCtr = s.freeCtr := rfl

/-! ### `setPad32` -/

@[simp] theorem State.setPad32_ver (s : State) (k : Nat) (x : Half) : (s.setPad32 k x).ver = s.ver := rfl
@[simp] theorem State.setPad32_padded (s : State) (k : Nat) (x : Half) : (s.setPad32 k x).padded = s.padded := rfl
@[simp] theorem State.setPad32_len (s : State) (k : Nat) (x : Half) : (s.setPad32 k x).len = s.len := rfl
@[simp] theorem State.setPad32_err (s : State) (k : Nat) (x : Half) : (s.setPad32 k x).err = s.err := rfl
@[simp] theorem State.setPad32_digest (s : State) (k : Nat) (x : Half) : (s.setPad32 k x).digest = s.digest := rfl
@[simp] theorem State.setPad32_input (s : State) (k : Nat) (x : Half) : (s.setPad32 k x).input = s.input := rfl
@[simp] theorem State.setPad32_stage (s : State) (k : Nat) (x : Half) : (s.setPad32 k x).stage = s.stage := rfl
@[simp] theorem State.setPad32_i (s : State) (k : Nat) (x : Half) : (s.setPad32 k x).i = s.i := rfl
@[simp] theorem State.setPad32_j (s : State) (k : Nat) (x : Half) : (s.setPad32 k x).j = s.j := rfl
@[simp] theorem State.setPad32_result (s : State) (k : Nat) (x : Half) : (s.setPad32 k x).result = s.result := rfl
@[simp] theorem State.setPad32_addrA (s : State) (k : Nat) (x : Half) : (s.setPad32 k x).addrA = s.addrA := rfl
@[simp] theorem State.setPad32_addrB (s : State) (k : Nat) (x : Half) : (s.setPad32 k x).addrB = s.addrB := rfl
@[simp] theorem State.setPad32_r (s : State) (k : Nat) (x : Half) : (s.setPad32 k x).r = s.r := rfl
@[simp] theorem State.setPad32_kstate (s : State) (k : Nat) (x : Half) : (s.setPad32 k x).kstate = s.kstate := rfl
@[simp] theorem State.setPad32_rand (s : State) (k : Nat) (x : Half) : (s.setPad32 k x).rand = s.rand := rfl
@[simp] theorem State.setPad32_slots (s : State) (k : Nat) (x : Half) : (s.setPad32 k x).slots = s.slots := rfl
@[simp] theorem State.setPad32_indices (s : State) (k : Nat) (x : Half) : (s.setPad32 k x).indices = s.indices := rfl
@[simp] theorem State.setPad32_totalSum (s : State) (k : Nat) (x : Half) : (s.setPad32 k x).totalSum = s.totalSum := rfl
@[simp] theorem State.setPad32_bufA (s : State) (k : Nat) (x : Half) : (s.setPad32 k x).bufA = s.bufA := rfl
@[simp] theorem State.setPad32_bufB (s : State) (k : Nat) (x : Half) : (s.setPad32 k x).bufB = s.bufB := rfl
@[simp] theorem State.setPad32_h (s : State) (k : Nat) (x : Half) : (s.setPad32 k x).h = s.h := rfl
@[simp] theorem State.setPad32_nonce (s : State) (k : Nat) (x : Half) : (s.setPad32 k x).nonce = s.nonce := rfl
@[simp] theorem State.setPad32_outOff (s : State) (k : Nat) (x : Half) : (s.setPad32 k x).outOff = s.outOff := rfl
@[simp] theorem State.setPad32_numChunks (s : State) (k : Nat) (x : Half) : (s.setPad32 k x).numChunks = s.numChunks := rfl
@[simp] theorem State.setPad32_params (s : State) (k : Nat) (x : Half) : (s.setPad32 k x).params = s.params := rfl
@[simp] theorem State.setPad32_pad (s : State) (k : Nat) (x : Half) : (s.setPad32 k x).pad = s.pad.writeBytes (4 * k) (le32 x) := rfl
@[simp] theorem State.setPad32_inputs (s : State) (k : Nat) (x : Half) : (s.setPad32 k x).inputs = s.inputs := rfl
@[simp] theorem State.setPad32_hostData (s : State) (k : Nat) (x : Half) : (s.setPad32 k x).hostData = s.hostData := rfl
@[simp] theorem State.setPad32_freeCtr (s : State) (k : Nat) (x : Half) : (s.setPad32 k x).freeCtr = s.freeCtr := rfl

/-! ### `setPadBytes` -/

@[simp] theorem State.setPadBytes_ver (s : State) (a : Nat) (bs : List Byte) : (s.setPadBytes a bs).ver = s.ver := rfl
@[simp] theorem State.setPadBytes_padded (s : State) (a : Nat) (bs : List Byte) : (s.setPadBytes a bs).padded = s.padded := rfl
@[simp] theorem State.setPadBytes_len (s : State) (a : Nat) (bs : List Byte) : (s.setPadBytes a bs).len = s.len := rfl
@[simp] theorem State.setPadBytes_err (s : State) (a : Nat) (bs : List Byte) : (s.setPadBytes a bs).err = s.err := rfl
@[simp] theorem State.setPadBytes_digest (s : State) (a : Nat) (bs : List Byte) : (s.setPadBytes a bs).digest = s.digest := rfl
@[simp] theorem State.setPadBytes_input (s : State) (a : Nat) (bs : List Byte) : (s.setPadBytes a bs).input = s.input := rfl
@[simp] theorem State.setPadBytes_stage (s : State) (a : Nat) (bs : List Byte) : (s.setPadBytes a bs).stage = s.stage := rfl
@[simp] theorem State.setPadBytes_i (s : State) (a : Nat) (bs : List Byte) : (s.setPadBytes a bs).i = s.i := rfl
@[simp] theorem State.setPadBytes_j (s : State) (a : Nat) (bs : List Byte) : (s.setPadBytes a bs).j = s.j := rfl
@[simp] theorem State.setPadBytes_result (s : State) (a : Nat) (bs : List Byte) : (s.setPadBytes a bs).result = s.result := rfl
@[simp] theorem State.setPadBytes_addrA (s : State) (a : Nat) (bs : List Byte) : (s.setPadBytes a bs).addrA = s.addrA := rfl
@[simp] theorem State.setPadBytes_addrB (s : State) (a : Nat) (bs : List Byte) : (s.setPadBytes a bs).addrB = s.addrB := rfl
@[simp] theorem State.setPadBytes_r (s : State) (a : Nat) (bs : List Byte) : (s.setPadBytes a bs).r = s.r := rfl
@[simp] theorem State.setPadBytes_kstate (s : State) (a : Nat) (bs : List Byte) : (s.setPadBytes a bs).kstate = s.kstate := rfl
@[simp] theorem State.setPadBytes_rand (s : State) (a : Nat) (bs : List Byte) : (s.setPadBytes a bs).rand = s.rand := rfl
@[simp] theorem State.setPadBytes_slots (s : State) (a : Nat) (bs : List Byte) : (s.setPadBytes a bs).slots = s.slots := rfl
@[simp] theorem State.setPadBytes_indices (s : State) (a : Nat) (bs : List Byte) : (s.setPadBytes a bs).indices = s.indices := rfl
@[simp] theorem State.setPadBytes_totalSum (s : State) (a : Nat) (bs : List Byte) : (s.setPadBytes a bs).totalSum = s.totalSum := rfl
@[simp] theorem State.setPadBytes_bufA (s : State) (a : Nat) (bs : List Byte) : (s.setPadBytes a bs).bufA = s.bufA := rfl
@[simp] theorem State.setPadBytes_bufB (s : State) (a : Nat) (bs : List Byte) : (s.setPadBytes a bs).bufB = s.bufB := rfl
@[simp] theorem State.setPadBytes_h (s : State) (a : Nat) (bs : List Byte) : (s.setPadBytes a bs).h = s.h := rfl
@[simp] theorem State.setPadBytes_nonce (s : State) (a : Nat) (bs : List Byte) : (s.setPadBytes a bs).nonce = s.nonce := rfl
@[simp] theorem State.setPadBytes_outOff (s : State) (a : Nat) (bs : List Byte) : (s.setPadBytes a bs).outOff = s.outOff := rfl
@[simp] theorem State.setPadBytes_numChunks (s : State) (a : Nat) (bs : List Byte) : (s.setPadBytes a bs).numChunks = s.numChunks := rfl
@[simp] theorem State.setPadBytes_params (s : State) (a : Nat) (bs : List Byte) : (s.setPadBytes a bs).params = s.params := rfl
@[simp] theorem State.setPadBytes_pad (s : State) (a : Nat) (bs : List Byte) : (s.setPadBytes a bs).pad = s.pad.writeBytes a bs := rfl
@[simp] theorem State.setPadBytes_inputs (s : State) (a : Nat) (bs : List Byte) : (s.setPadBytes a bs).inputs = s.inputs := rfl
@[simp] theorem State.setPadBytes_hostData (s : State) (a : Nat) (bs : List Byte) : (s.setPadBytes a bs).hostData = s.hostData := rfl
@[simp] theorem State.setPadBytes_freeCtr (s : State) (a : Nat) (bs : List Byte) : (s.setPadBytes a bs).freeCtr = s.freeCtr := rfl

/-! ### `zeroPad` -/

@[simp] theorem State.zeroPad_ver (s : State) (n : Nat) : (s.zeroPad n).ver = s.ver := rfl
@[simp] theorem State.zeroPad_padded (s : State) (n : Nat) : (s.zeroPad n).padded = s.padded := rfl
@[simp] theorem State.zeroPad_len (s : State) (n : Nat) : (s.zeroPad n).len = s.len := rfl
@[simp] theorem State.zeroPad_err (s : State) (n : Nat) : (s.zeroPad n).err = s.err := rfl
@[simp] theorem State.zeroPad_digest (s : State) (n : Nat) : (s.zeroPad n).digest = s.digest := rfl
@[simp] theorem State.zeroPad_input (s : State) (n : Nat) : (s.zeroPad n).input = s.input := rfl
@[simp] theorem State.zeroPad_stage (s : State) (n : Nat) : (s.zeroPad n).stage = s.stage := rfl
@[simp] theorem State.zeroPad_i (s : State) (n : Nat) : (s.zeroPad n).i = s.i := rfl
@[simp] theorem State.zeroPad_j (s : State) (n : Nat) : (s.zeroPad n).j = s.j := rfl
@[simp] theorem State.zeroPad_result (s : State) (n : Nat) : (s.zeroPad n).result = s.result := rfl
@[simp] theorem State.zeroPad_addrA (s : State) (n : Nat) : (s.zeroPad n).addrA = s.addrA := rfl
@[simp] theorem State.zeroPad_addrB (s : State) (n : Nat) : (s.zeroPad n).addrB = s.addrB := rfl
@[simp] theorem State.zeroPad_r (s : State) (n : Nat) : (s.zeroPad n).r = s.r := rfl
@[simp] theorem State.zeroPad_kstate (s : State) (n : Nat) : (s.zeroPad n).kstate = s.kstate := rfl
@[simp] theorem State.zeroPad_rand (s : State) (n : Nat) : (s.zeroPad n).rand = s.rand := rfl
@[simp] theorem State.zeroPad_slots (s : State) (n : Nat) : (s.zeroPad n).slots = s.slots := rfl
@[simp] theorem State.zeroPad_indices (s : State) (n : Nat) : (s.zeroPad n).indices = s.indices := rfl
@[simp] theorem State.zeroPad_totalSum (s : State) (n : Nat) : (s.zeroPad n).totalSum = s.totalSum := rfl
@[simp] theorem State.zeroPad_bufA (s : State) (n : Nat) : (s.zeroPad n).bufA = s.bufA := rfl
@[simp] theorem State.zeroPad_bufB (s : State) (n : Nat) : (s.zeroPad n).bufB = s.bufB := rfl
@[simp] theorem State.zeroPad_h (s : State) (n : Nat) : (s.zeroPad n).h = s.h := rfl
@[simp] theorem State.zeroPad_nonce (s : State) (n : Nat) : (s.zeroPad n).nonce = s.nonce := rfl
@[simp] theorem State.zeroPad_outOff (s : State) (n : Nat) : (s.zeroPad n).outOff = s.outOff := rfl
@[simp] theorem State.zeroPad_numChunks (s : State) (n : Nat) : (s.zeroPad n).numChunks = s.numChunks := rfl
@[simp] theorem State.zeroPad_params (s : State) (n : Nat) : (s.zeroPad n).params = s.params := rfl
@[simp] theorem State.zeroPad_pad (s : State) (n : Nat) : (s.zeroPad n).pad = s.pad.filter fun c => decide (n ≤ c.1) := rfl
@[simp] theorem State.zeroPad_inputs (s : State) (n : Nat) : (s.zeroPad n).inputs = s.inputs := rfl
@[simp] theorem State.zeroPad_hostData (s : State) (n : Nat) : (s.zeroPad n).hostData = s.hostData := rfl
@[simp] theorem State.zeroPad_freeCtr (s : State) (n : Nat) : (s.zeroPad n).freeCtr = s.freeCtr := rfl

/-! ### `setInBytes` -/

@[simp] theorem State.setInBytes_ver (s : State) (k : Nat) (bs : List Byte) : (s.setInBytes k bs).ver = s.ver := rfl
@[simp] theorem State.setInBytes_padded (s : State) (k : Nat) (bs : List Byte) : (s.setInBytes k bs).padded = s.padded := rfl
@[simp] theorem State.setInBytes_len (s : State) (k : Nat) (bs : List Byte) : (s.setInBytes k bs).len = s.len := rfl
@[simp] theorem State.setInBytes_err (s : State) (k : Nat) (bs : List Byte) : (s.setInBytes k bs).err = s.err := rfl
@[simp] theorem State.setInBytes_digest (s : State) (k : Nat) (bs : List Byte) : (s.setInBytes k bs).digest = s.digest := rfl
@[simp] theorem State.setInBytes_input (s : State) (k : Nat) (bs : List Byte) : (s.setInBytes k bs).input = s.input.writeBytes k (bs.take (s.params.inCap - k)) := rfl
@[simp] theorem State.setInBytes_stage (s : State) (k : Nat) (bs : List Byte) : (s.setInBytes k bs).stage = s.stage := rfl
@[simp] theorem State.setInBytes_i (s : State) (k : Nat) (bs : List Byte) : (s.setInBytes k bs).i = s.i := rfl
@[simp] theorem State.setInBytes_j (s : State) (k : Nat) (bs : List Byte) : (s.setInBytes k bs).j = s.j := rfl
@[simp] theorem State.setInBytes_result (s : State) (k : Nat) (bs : List Byte) : (s.setInBytes k bs).result = s.result := rfl
@[simp] theorem State.setInBytes_addrA (s : State) (k : Nat) (bs : List Byte) : (s.setInBytes k bs).addrA = s.addrA := rfl
@[simp] theorem State.setInBytes_addrB (s : State) (k : Nat) (bs : List Byte) : (s.setInBytes k bs).addrB = s.addrB := rfl
@[simp] theorem State.setInBytes_r (s : State) (k : Nat) (bs : List Byte) : (s.setInBytes k bs).r = s.r := rfl
@[simp] theorem State.setInBytes_kstate (s : State) (k : Nat) (bs : List Byte) : (s.setInBytes k bs).kstate = s.kstate := rfl
@[simp] theorem State.setInBytes_rand (s : State) (k : Nat) (bs : List Byte) : (s.setInBytes k bs).rand = s.rand := rfl
@[simp] theorem State.setInBytes_slots (s : State) (k : Nat) (bs : List Byte) : (s.setInBytes k bs).slots = s.slots := rfl
@[simp] theorem State.setInBytes_indices (s : State) (k : Nat) (bs : List Byte) : (s.setInBytes k bs).indices = s.indices := rfl
@[simp] theorem State.setInBytes_totalSum (s : State) (k : Nat) (bs : List Byte) : (s.setInBytes k bs).totalSum = s.totalSum := rfl
@[simp] theorem State.setInBytes_bufA (s : State) (k : Nat) (bs : List Byte) : (s.setInBytes k bs).bufA = s.bufA := rfl
@[simp] theorem State.setInBytes_bufB (s : State) (k : Nat) (bs : List Byte) : (s.setInBytes k bs).bufB = s.bufB := rfl
@[simp] theorem State.setInBytes_h (s : State) (k : Nat) (bs : List Byte) : (s.setInBytes k bs).h = s.h := rfl
@[simp] theorem State.setInBytes_nonce (s : State) (k : Nat) (bs : List Byte) : (s.setInBytes k bs).nonce = s.nonce := rfl
@[simp] theorem State.setInBytes_outOff (s : State) (k : Nat) (bs : List Byte) : (s.setInBytes k bs).outOff = s.outOff := rfl
@[simp] theorem State.setInBytes_numChunks (s : State) (k : Nat) (bs : List Byte) : (s.setInBytes k bs).numChunks = s.numChunks := rfl
@[simp] theorem State.setInBytes_params (s : State) (k : Nat) (bs : List Byte) : (s.setInBytes k bs).params = s.params := rfl
@[simp] theorem State.setInBytes_pad (s : State) (k : Nat) (bs : List Byte) : (s.setInBytes k bs).pad = s.pad := rfl
@[simp] theorem State.setInBytes_inputs (s : State) (k : Nat) (bs : List Byte) : (s.setInBytes k bs).inputs = s.inputs := rfl
@[simp] theorem State.setInBytes_hostData (s : State) (k : Nat) (bs : List Byte) : (s.setInBytes k bs).hostData = s.hostData := rfl
@[simp] theorem State.setInBytes_freeCtr (s : State) (k : Nat) (bs : List Byte) : (s.setInBytes k bs).freeCtr = s.freeCtr := rfl

/-! ### `goto` -/

@[simp] theorem State.goto_ver (s : State) (st : Stage) (x y : Half) : (s.goto st x y).ver = s.ver := rfl
@[simp] theorem State.goto_padded (s : State) (st : Stage) (x y : Half) : (s.goto st x y).padded = s.padded := rfl
@[simp] theorem State.goto_len (s : State) (st : Stage) (x y : Half) : (s.goto st x y).len = s.len := rfl
@[simp] theorem State.goto_err (s : State) (st : Stage) (x y : Half) : (s.goto st x y).err = s.err := rfl
@[simp] theorem State.goto_digest (s : State) (st : Stage) (x y : Half) : (s.goto st x y).digest = s.digest := rfl
@[simp] theorem State.goto_input (s : State) (st : Stage) (x y : Half) : (s.goto st x y).input = s.input := rfl
@[simp] theorem State.goto_stage (s : State) (st : Stage) (x y : Half) : (s.goto st x y).stage = st := rfl
@[simp] theorem State.goto_i (s : State) (st : Stage) (x y : Half) : (s.goto st x y).i = x := rfl
@[simp] theorem State.goto_j (s : State) (st : Stage) (x y : Half) : (s.goto st x y).j = y := rfl
@[simp] theorem State.goto_result (s : State) (st : Stage) (x y : Half) : (s.goto st x y).result = s.result := rfl
@[simp] theorem State.goto_addrA (s : State) (st : Stage) (x y : Half) : (s.goto st x y).addrA = s.addrA := rfl
@[simp] theorem State.goto_addrB (s : State) (st : Stage) (x y : Half) : (s.goto st x y).addrB = s.addrB := rfl
@[simp] theorem State.goto_r (s : State) (st : Stage) (x y : Half) : (s.goto st x y).r = s.r := rfl
@[simp] theorem State.goto_kstate (s : State) (st : Stage) (x y : Half) : (s.goto st x y).kstate = s.kstate := rfl
@[simp] theorem State.goto_rand (s : State) (st : Stage) (x y : Half) : (s.goto st x y).rand = s.rand := rfl
@[simp] theorem State.goto_slots (s : State) (st : Stage) (x y : Half) : (s.goto st x y).slots = s.slots := rfl
@[simp] theorem State.goto_indices (s : State) (st : Stage) (x y : Half) : (s.goto st x y).indices = s.indices := rfl
@[simp] theorem State.goto_totalSum (s : State) (st : Stage) (x y : Half) : (s.goto st x y).totalSum = s.totalSum := rfl
@[simp] theorem State.goto_bufA (s : State) (st : Stage) (x y : Half) : (s.goto st x y).bufA = s.bufA := rfl
@[simp] theorem State.goto_bufB (s : State) (st : Stage) (x y : Half) : (s.goto st x y).bufB = s.bufB := rfl
@[simp] theorem State.goto_h (s : State) (st : Stage) (x y : Half) : (s.goto st x y).h = s.h := rfl
@[simp] theorem State.goto_nonce (s : State) (st : Stage) (x y : Half) : (s.goto st x y).nonce = s.nonce := rfl
@[simp] theorem State.goto_outOff (s : State) (st : Stage) (x y : Half) : (s.goto st x y).outOff = s.outOff := rfl
@[simp] theorem State.goto_numChunks (s : State) (st : Stage) (x y : Half) : (s.goto st x y).numChunks = s.numChunks := rfl
@[simp] theorem State.goto_params (s : State) (st : Stage) (x y : Half) : (s.goto st x y).params = s.params := rfl
@[simp] theorem State.goto_pad (s : State) (st : Stage) (x y : Half) : (s.goto st x y).pad = s.pad := rfl
@[simp] theorem State.goto_inputs (s : State) (st : Stage) (x y : Half) : (s.goto st x y).inputs = s.inputs := rfl
@[simp] theorem State.goto_hostData (s : State) (st : Stage) (x y : Half) : (s.goto st x y).hostData = s.hostData := rfl
@[simp] theorem State.goto_freeCtr (s : State) (st : Stage) (x y : Half) : (s.goto st x y).freeCtr = s.freeCtr := rfl

/-! ### `raise` -/

@[simp] theorem State.raise_ver (s : State) (e : ErrCode) : (s.raise e).ver = s.ver := rfl
@[simp] theorem State.raise_padded (s : State) (e : ErrCode) : (s.raise e).padded = s.padded := rfl
@[simp] theorem State.raise_len (s : State) (e : ErrCode) : (s.raise e).len = s.len := rfl
@[simp] theorem State.raise_err (s : State) (e : ErrCode) : (s.raise e).err = e := rfl
@[simp] theorem State.raise_digest (s : State) (e : ErrCode) : (s.raise e).digest = s.digest := rfl
@[simp] theorem State.raise_input (s : State) (e : ErrCode) : (s.raise e).input = s.input := rfl
@[simp] theorem State.raise_stage (s : State) (e : ErrCode) : (s.raise e).stage = .fault := rfl
@[simp] theorem State.raise_i (s : State) (e : ErrCode) : (s.raise e).i = 0 := rfl
@[simp] theorem State.raise_j (s : State) (e : ErrCode) : (s.raise e).j = 0 := rfl
@[simp] theorem State.raise_result (s : State) (e : ErrCode) : (s.raise e).result = s.result := rfl
@[simp] theorem State.raise_addrA (s : State) (e : ErrCode) : (s.raise e).addrA = s.addrA := rfl
@[simp] theorem State.raise_addrB (s : State) (e : ErrCode) : (s.raise e).addrB = s.addrB := rfl
@[simp] theorem State.raise_r (s : State) (e : ErrCode) : (s.raise e).r = s.r := rfl
@[simp] theorem State.raise_kstate (s : State) (e : ErrCode) : (s.raise e).kstate = s.kstate := rfl
@[simp] theorem State.raise_rand (s : State) (e : ErrCode) : (s.raise e).rand = s.rand := rfl
@[simp] theorem State.raise_slots (s : State) (e : ErrCode) : (s.raise e).slots = s.slots := rfl
@[simp] theorem State.raise_indices (s : State) (e : ErrCode) : (s.raise e).indices = s.indices := rfl
@[simp] theorem State.raise_totalSum (s : State) (e : ErrCode) : (s.raise e).totalSum = s.totalSum := rfl
@[simp] theorem State.raise_bufA (s : State) (e : ErrCode) : (s.raise e).bufA = s.bufA := rfl
@[simp] theorem State.raise_bufB (s : State) (e : ErrCode) : (s.raise e).bufB = s.bufB := rfl
@[simp] theorem State.raise_h (s : State) (e : ErrCode) : (s.raise e).h = s.h := rfl
@[simp] theorem State.raise_nonce (s : State) (e : ErrCode) : (s.raise e).nonce = s.nonce := rfl
@[simp] theorem State.raise_outOff (s : State) (e : ErrCode) : (s.raise e).outOff = s.outOff := rfl
@[simp] theorem State.raise_numChunks (s : State) (e : ErrCode) : (s.raise e).numChunks = s.numChunks := rfl
@[simp] theorem State.raise_params (s : State) (e : ErrCode) : (s.raise e).params = s.params := rfl
@[simp] theorem State.raise_pad (s : State) (e : ErrCode) : (s.raise e).pad = s.pad := rfl
@[simp] theorem State.raise_inputs (s : State) (e : ErrCode) : (s.raise e).inputs = s.inputs := rfl
@[simp] theorem State.raise_hostData (s : State) (e : ErrCode) : (s.raise e).hostData = s.hostData := rfl
@[simp] theorem State.raise_freeCtr (s : State) (e : ErrCode) : (s.raise e).freeCtr = s.freeCtr := rfl

/-! ### `hostRead` -/

@[simp] theorem State.hostRead_ver (s : State) (v : Word) : (s.hostRead v).ver = s.ver := rfl
@[simp] theorem State.hostRead_padded (s : State) (v : Word) : (s.hostRead v).padded = s.padded := rfl
@[simp] theorem State.hostRead_len (s : State) (v : Word) : (s.hostRead v).len = s.len := rfl
@[simp] theorem State.hostRead_err (s : State) (v : Word) : (s.hostRead v).err = s.err := rfl
@[simp] theorem State.hostRead_digest (s : State) (v : Word) : (s.hostRead v).digest = s.digest := rfl
@[simp] theorem State.hostRead_input (s : State) (v : Word) : (s.hostRead v).input = s.input := rfl
@[simp] theorem State.hostRead_stage (s : State) (v : Word) : (s.hostRead v).stage = s.stage := rfl
@[simp] theorem State.hostRead_i (s : State) (v : Word) : (s.hostRead v).i = s.i := rfl
@[simp] theorem State.hostRead_j (s : State) (v : Word) : (s.hostRead v).j = s.j := rfl
@[simp] theorem State.hostRead_result (s : State) (v : Word) : (s.hostRead v).result = s.result := rfl
@[simp] theorem State.hostRead_addrA (s : State) (v : Word) : (s.hostRead v).addrA = s.addrA := rfl
@[simp] theorem State.hostRead_addrB (s : State) (v : Word) : (s.hostRead v).addrB = s.addrB := rfl
@[simp] theorem State.hostRead_r (s : State) (v : Word) : (s.hostRead v).r = s.r := rfl
@[simp] theorem State.hostRead_kstate (s : State) (v : Word) : (s.hostRead v).kstate = s.kstate := rfl
@[simp] theorem State.hostRead_rand (s : State) (v : Word) : (s.hostRead v).rand = s.rand := rfl
@[simp] theorem State.hostRead_slots (s : State) (v : Word) : (s.hostRead v).slots = s.slots := rfl
@[simp] theorem State.hostRead_indices (s : State) (v : Word) : (s.hostRead v).indices = s.indices := rfl
@[simp] theorem State.hostRead_totalSum (s : State) (v : Word) : (s.hostRead v).totalSum = s.totalSum := rfl
@[simp] theorem State.hostRead_bufA (s : State) (v : Word) : (s.hostRead v).bufA = s.bufA := rfl
@[simp] theorem State.hostRead_bufB (s : State) (v : Word) : (s.hostRead v).bufB = s.bufB := rfl
@[simp] theorem State.hostRead_h (s : State) (v : Word) : (s.hostRead v).h = s.h := rfl
@[simp] theorem State.hostRead_nonce (s : State) (v : Word) : (s.hostRead v).nonce = s.nonce := rfl
@[simp] theorem State.hostRead_outOff (s : State) (v : Word) : (s.hostRead v).outOff = s.outOff := rfl
@[simp] theorem State.hostRead_numChunks (s : State) (v : Word) : (s.hostRead v).numChunks = s.numChunks := rfl
@[simp] theorem State.hostRead_params (s : State) (v : Word) : (s.hostRead v).params = s.params := rfl
@[simp] theorem State.hostRead_pad (s : State) (v : Word) : (s.hostRead v).pad = s.pad := rfl
@[simp] theorem State.hostRead_inputs (s : State) (v : Word) : (s.hostRead v).inputs = s.inputs := rfl
@[simp] theorem State.hostRead_hostData (s : State) (v : Word) : (s.hostRead v).hostData = v := rfl
@[simp] theorem State.hostRead_freeCtr (s : State) (v : Word) : (s.hostRead v).freeCtr = s.freeCtr := rfl

/-! ### `freeRead` -/

@[simp] theorem State.freeRead_ver (s : State) (n : Nat) : (s.freeRead n).ver = s.ver := rfl
@[simp] theorem State.freeRead_padded (s : State) (n : Nat) : (s.freeRead n).padded = s.padded := rfl
@[simp] theorem State.freeRead_len (s : State) (n : Nat) : (s.freeRead n).len = s.len := rfl
@[simp] theorem State.freeRead_err (s : State) (n : Nat) : (s.freeRead n).err = s.err := rfl
@[simp] theorem State.freeRead_digest (s : State) (n : Nat) : (s.freeRead n).digest = s.digest := rfl
@[simp] theorem State.freeRead_input (s : State) (n : Nat) : (s.freeRead n).input = s.input := rfl
@[simp] theorem State.freeRead_stage (s : State) (n : Nat) : (s.freeRead n).stage = s.stage := rfl
@[simp] theorem State.freeRead_i (s : State) (n : Nat) : (s.freeRead n).i = s.i := rfl
@[simp] theorem State.freeRead_j (s : State) (n : Nat) : (s.freeRead n).j = s.j := rfl
@[simp] theorem State.freeRead_result (s : State) (n : Nat) : (s.freeRead n).result = s.result := rfl
@[simp] theorem State.freeRead_addrA (s : State) (n : Nat) : (s.freeRead n).addrA = s.addrA := rfl
@[simp] theorem State.freeRead_addrB (s : State) (n : Nat) : (s.freeRead n).addrB = s.addrB := rfl
@[simp] theorem State.freeRead_r (s : State) (n : Nat) : (s.freeRead n).r = s.r := rfl
@[simp] theorem State.freeRead_kstate (s : State) (n : Nat) : (s.freeRead n).kstate = s.kstate := rfl
@[simp] theorem State.freeRead_rand (s : State) (n : Nat) : (s.freeRead n).rand = s.rand := rfl
@[simp] theorem State.freeRead_slots (s : State) (n : Nat) : (s.freeRead n).slots = s.slots := rfl
@[simp] theorem State.freeRead_indices (s : State) (n : Nat) : (s.freeRead n).indices = s.indices := rfl
@[simp] theorem State.freeRead_totalSum (s : State) (n : Nat) : (s.freeRead n).totalSum = s.totalSum := rfl
@[simp] theorem State.freeRead_bufA (s : State) (n : Nat) : (s.freeRead n).bufA = s.bufA := rfl
@[simp] theorem State.freeRead_bufB (s : State) (n : Nat) : (s.freeRead n).bufB = s.bufB := rfl
@[simp] theorem State.freeRead_h (s : State) (n : Nat) : (s.freeRead n).h = s.h := rfl
@[simp] theorem State.freeRead_nonce (s : State) (n : Nat) : (s.freeRead n).nonce = s.nonce := rfl
@[simp] theorem State.freeRead_outOff (s : State) (n : Nat) : (s.freeRead n).outOff = s.outOff := rfl
@[simp] theorem State.freeRead_numChunks (s : State) (n : Nat) : (s.freeRead n).numChunks = s.numChunks := rfl
@[simp] theorem State.freeRead_params (s : State) (n : Nat) : (s.freeRead n).params = s.params := rfl
@[simp] theorem State.freeRead_pad (s : State) (n : Nat) : (s.freeRead n).pad = s.pad := rfl
@[simp] theorem State.freeRead_inputs (s : State) (n : Nat) : (s.freeRead n).inputs = s.inputs := rfl
@[simp] theorem State.freeRead_hostData (s : State) (n : Nat) : (s.freeRead n).hostData = ((Config.freeWord s.freeCtr).setWidth n).setWidth 64 := rfl
@[simp] theorem State.freeRead_freeCtr (s : State) (n : Nat) : (s.freeRead n).freeCtr = s.freeCtr + 1 := rfl

/-! ### `takeInput` -/

@[simp] theorem State.takeInput_ver (s : State) : (s.takeInput).ver = s.ver := rfl
@[simp] theorem State.takeInput_padded (s : State) : (s.takeInput).padded = s.padded := rfl
@[simp] theorem State.takeInput_len (s : State) : (s.takeInput).len = s.len := rfl
@[simp] theorem State.takeInput_err (s : State) : (s.takeInput).err = s.err := rfl
@[simp] theorem State.takeInput_digest (s : State) : (s.takeInput).digest = s.digest := rfl
@[simp] theorem State.takeInput_input (s : State) : (s.takeInput).input = s.input := rfl
@[simp] theorem State.takeInput_stage (s : State) : (s.takeInput).stage = s.stage := rfl
@[simp] theorem State.takeInput_i (s : State) : (s.takeInput).i = s.i := rfl
@[simp] theorem State.takeInput_j (s : State) : (s.takeInput).j = s.j := rfl
@[simp] theorem State.takeInput_result (s : State) : (s.takeInput).result = s.result := rfl
@[simp] theorem State.takeInput_addrA (s : State) : (s.takeInput).addrA = s.addrA := rfl
@[simp] theorem State.takeInput_addrB (s : State) : (s.takeInput).addrB = s.addrB := rfl
@[simp] theorem State.takeInput_r (s : State) : (s.takeInput).r = s.r := rfl
@[simp] theorem State.takeInput_kstate (s : State) : (s.takeInput).kstate = s.kstate := rfl
@[simp] theorem State.takeInput_rand (s : State) : (s.takeInput).rand = s.rand := rfl
@[simp] theorem State.takeInput_slots (s : State) : (s.takeInput).slots = s.slots := rfl
@[simp] theorem State.takeInput_indices (s : State) : (s.takeInput).indices = s.indices := rfl
@[simp] theorem State.takeInput_totalSum (s : State) : (s.takeInput).totalSum = s.totalSum := rfl
@[simp] theorem State.takeInput_bufA (s : State) : (s.takeInput).bufA = s.bufA := rfl
@[simp] theorem State.takeInput_bufB (s : State) : (s.takeInput).bufB = s.bufB := rfl
@[simp] theorem State.takeInput_h (s : State) : (s.takeInput).h = s.h := rfl
@[simp] theorem State.takeInput_nonce (s : State) : (s.takeInput).nonce = s.nonce := rfl
@[simp] theorem State.takeInput_outOff (s : State) : (s.takeInput).outOff = s.outOff := rfl
@[simp] theorem State.takeInput_numChunks (s : State) : (s.takeInput).numChunks = s.numChunks := rfl
@[simp] theorem State.takeInput_params (s : State) : (s.takeInput).params = s.params := rfl
@[simp] theorem State.takeInput_pad (s : State) : (s.takeInput).pad = s.pad := rfl
@[simp] theorem State.takeInput_inputs (s : State) : (s.takeInput).inputs = s.inputs.tail := rfl
@[simp] theorem State.takeInput_hostData (s : State) : (s.takeInput).hostData = s.hostData := rfl
@[simp] theorem State.takeInput_freeCtr (s : State) : (s.takeInput).freeCtr = s.freeCtr := rfl

/-! ### `applyReset` -/

@[simp] theorem State.applyReset_ver (s : State) : (s.applyReset).ver = State.reset.ver := rfl
@[simp] theorem State.applyReset_padded (s : State) : (s.applyReset).padded = State.reset.padded := rfl
@[simp] theorem State.applyReset_len (s : State) : (s.applyReset).len = State.reset.len := rfl
@[simp] theorem State.applyReset_err (s : State) : (s.applyReset).err = State.reset.err := rfl
@[simp] theorem State.applyReset_digest (s : State) : (s.applyReset).digest = State.reset.digest := rfl
@[simp] theorem State.applyReset_input (s : State) : (s.applyReset).input = State.reset.input := rfl
@[simp] theorem State.applyReset_stage (s : State) : (s.applyReset).stage = State.reset.stage := rfl
@[simp] theorem State.applyReset_i (s : State) : (s.applyReset).i = State.reset.i := rfl
@[simp] theorem State.applyReset_j (s : State) : (s.applyReset).j = State.reset.j := rfl
@[simp] theorem State.applyReset_result (s : State) : (s.applyReset).result = State.reset.result := rfl
@[simp] theorem State.applyReset_addrA (s : State) : (s.applyReset).addrA = State.reset.addrA := rfl
@[simp] theorem State.applyReset_addrB (s : State) : (s.applyReset).addrB = State.reset.addrB := rfl
@[simp] theorem State.applyReset_r (s : State) : (s.applyReset).r = State.reset.r := rfl
@[simp] theorem State.applyReset_kstate (s : State) : (s.applyReset).kstate = State.reset.kstate := rfl
@[simp] theorem State.applyReset_rand (s : State) : (s.applyReset).rand = State.reset.rand := rfl
@[simp] theorem State.applyReset_slots (s : State) : (s.applyReset).slots = State.reset.slots := rfl
@[simp] theorem State.applyReset_indices (s : State) : (s.applyReset).indices = State.reset.indices := rfl
@[simp] theorem State.applyReset_totalSum (s : State) : (s.applyReset).totalSum = State.reset.totalSum := rfl
@[simp] theorem State.applyReset_bufA (s : State) : (s.applyReset).bufA = State.reset.bufA := rfl
@[simp] theorem State.applyReset_bufB (s : State) : (s.applyReset).bufB = State.reset.bufB := rfl
@[simp] theorem State.applyReset_h (s : State) : (s.applyReset).h = State.reset.h := rfl
@[simp] theorem State.applyReset_nonce (s : State) : (s.applyReset).nonce = State.reset.nonce := rfl
@[simp] theorem State.applyReset_outOff (s : State) : (s.applyReset).outOff = State.reset.outOff := rfl
@[simp] theorem State.applyReset_numChunks (s : State) : (s.applyReset).numChunks = State.reset.numChunks := rfl
@[simp] theorem State.applyReset_params (s : State) : (s.applyReset).params = s.params := rfl
@[simp] theorem State.applyReset_pad (s : State) : (s.applyReset).pad = s.pad := rfl
@[simp] theorem State.applyReset_inputs (s : State) : (s.applyReset).inputs = s.inputs := rfl
@[simp] theorem State.applyReset_hostData (s : State) : (s.applyReset).hostData = s.hostData := rfl
@[simp] theorem State.applyReset_freeCtr (s : State) : (s.applyReset).freeCtr = s.freeCtr := rfl

end Sys2Proof.Machine
end

