-- ==== Sys2Proof/Laws/Ops.lean ====
section
/-! SUPPORT. What the shared operations do: the bytes of a word, the views of the scratchpad, the register files. -/

namespace Sys2Proof.Machine

/-! ### Bytes and words -/

theorem leValue_lt (l : List Byte) : leValue l < 256 ^ l.length := by
  induction l with
  | nil => simp [leValue]
  | cons b t ih =>
    have := b.isLt
    simp only [leValue, List.length_cons, Nat.pow_succ]
    omega

theorem leValue_div_mod (l : List Byte) (k : Nat) : leValue l / 256 ^ k % 256 = (l.getD k 0).toNat := by
  induction l generalizing k with
  | nil => simp [leValue]
  | cons b t ih =>
    have := b.isLt
    cases k with
    | zero => simp only [leValue, Nat.pow_zero, Nat.div_one, List.getD_cons_zero]; omega
    | succ k =>
      have e : (b.toNat + 256 * leValue t) / 256 = leValue t := by omega
      simp only [leValue, Nat.pow_succ', ← Nat.div_div_eq_div_mul, e, ih, List.getD_cons_succ]

/-- Byte `m` of the little-endian word of a byte string. -/
theorem extract_ofNat_leValue (n : Nat) (l : List Byte) {m : Nat} (h : 8 * m + 8 ≤ n) :
    (BitVec.ofNat n (leValue l)).extractLsb' (8 * m) 8 = l.getD m 0 := by
  apply BitVec.eq_of_toNat_eq
  have e : leValue l % 2 ^ n / 2 ^ (8 * m) % 2 ^ 8 = leValue l / 2 ^ (8 * m) % 2 ^ 8 := by
    obtain ⟨d, rfl⟩ : ∃ d, n = 8 * m + (8 + d) := ⟨n - (8 * m + 8), by omega⟩
    rw [Nat.pow_add, Nat.mod_mul_right_div_self, Nat.pow_add, Nat.mod_mod_of_dvd _ (Nat.dvd_mul_right _ _)]
  rw [BitVec.extractLsb'_toNat, BitVec.toNat_ofNat, Nat.shiftRight_eq_div_pow, e, ← leValue_div_mod,
    show (256 : Nat) = 2 ^ 8 from rfl, ← Nat.pow_mul]

/-- Two words with the same bytes are the same word. -/
theorem eq_of_bytes {n : Nat} {x y : BitVec (8 * n)}
    (h : ∀ m, m < n → x.extractLsb' (8 * m) 8 = y.extractLsb' (8 * m) 8) : x = y := by
  apply BitVec.eq_of_getLsbD_eq
  intro i hi
  have := congrArg (fun b : Byte => b.getLsbD (i % 8)) (h (i / 8) (by omega))
  simp only [BitVec.getLsbD_extractLsb', Nat.mod_lt i (show 8 > 0 by omega), decide_true, Bool.true_and,
    show 8 * (i / 8) + i % 8 = i by omega] at this
  exact this

@[simp] theorem length_le64 (x : Word) : (le64 x).length = 8 := by simp [le64]

@[simp] theorem length_le32 (x : Half) : (le32 x).length = 4 := by simp [le32]

theorem getD_le64 (x : Word) {m : Nat} (h : m < 8) : (le64 x).getD m 0 = x.extractLsb' (8 * m) 8 := by
  simp [le64, List.getD_eq_getElem?_getD, h]

theorem getD_le32 (x : Half) {m : Nat} (h : m < 4) : (le32 x).getD m 0 = x.extractLsb' (8 * m) 8 := by
  simp [le32, List.getD_eq_getElem?_getD, h]

/-! ### The views of the scratchpad -/

/-- Byte `m` of `PAD64[k]` (20_memory.md R62). -/
theorem State.pad64_byte (s : State) (k : Nat) {m : Nat} (h : m < 8) :
    (s.pad64 k).extractLsb' (8 * m) 8 = s.pad.read (8 * k + m) := by
  rw [State.pad64, Memory.readLE, extract_ofNat_leValue 64 _ (by omega), Memory.getD_readBytes, if_pos h]

/-- Byte `m` of `PAD32[k]` (20_memory.md R63). -/
theorem State.pad32_byte (s : State) (k : Nat) {m : Nat} (h : m < 4) :
    (s.pad32 k).extractLsb' (8 * m) 8 = s.pad.read (4 * k + m) := by
  rw [State.pad32, Memory.readLE, extract_ofNat_leValue 32 _ (by omega), Memory.getD_readBytes, if_pos h]

/-- `PAD64[k]` depends on its eight bytes alone. -/
theorem State.pad64_congr {s t : State} {k : Nat} (h : ∀ m, m < 8 → s.pad.read (8 * k + m) = t.pad.read (8 * k + m)) :
    s.pad64 k = t.pad64 k := by
  simp only [State.pad64, Memory.readLE, Memory.readBytes_congr h]

/-- `PAD32[k]` depends on its four bytes alone. -/
theorem State.pad32_congr {s t : State} {k : Nat} (h : ∀ m, m < 4 → s.pad.read (4 * k + m) = t.pad.read (4 * k + m)) :
    s.pad32 k = t.pad32 k := by
  simp only [State.pad32, Memory.readLE, Memory.readBytes_congr h]

/-- What a byte reads as after a word is written. -/
theorem State.read_setPad64 (s : State) (k : Nat) (w : Word) (a : Nat) :
    (s.setPad64 k w).pad.read a =
      if 8 * k ≤ a ∧ a < 8 * k + 8 then w.extractLsb' (8 * (a - 8 * k)) 8 else s.pad.read a := by
  rw [State.setPad64_pad, Memory.read_writeBytes, length_le64]
  split
  · rw [getD_le64 _ (by omega)]
  · rfl

/-- What a byte reads as after a 32-bit word is written. -/
theorem State.read_setPad32 (s : State) (k : Nat) (x : Half) (a : Nat) :
    (s.setPad32 k x).pad.read a =
      if 4 * k ≤ a ∧ a < 4 * k + 4 then x.extractLsb' (8 * (a - 4 * k)) 8 else s.pad.read a := by
  rw [State.setPad32_pad, Memory.read_writeBytes, length_le32]
  split
  · rw [getD_le32 _ (by omega)]
  · rfl

/-- A word written is read back, and no other word changes. -/
theorem State.pad64_setPad64 (s : State) (k l : Nat) (w : Word) :
    (s.setPad64 k w).pad64 l = if l = k then w else s.pad64 l := by
  split
  · rename_i h; subst h
    refine eq_of_bytes (n := 8) fun m hm => ?_
    rw [State.pad64_byte _ _ hm, State.read_setPad64, if_pos (by omega), Nat.add_sub_cancel_left]
  · exact State.pad64_congr fun m hm => by rw [State.read_setPad64, if_neg (by omega)]

/-- A 32-bit word written is read back, and no other 32-bit word changes. -/
theorem State.pad32_setPad32 (s : State) (k l : Nat) (x : Half) :
    (s.setPad32 k x).pad32 l = if l = k then x else s.pad32 l := by
  split
  · rename_i h; subst h
    refine eq_of_bytes (n := 4) fun m hm => ?_
    rw [State.pad32_byte _ _ hm, State.read_setPad32, if_pos (by omega), Nat.add_sub_cancel_left]
  · exact State.pad32_congr fun m hm => by rw [State.read_setPad32, if_neg (by omega)]

/-- What a byte reads as after the first `n` bytes are zeroed (44_chacha_fill.md R200). -/
theorem State.read_zeroPad (s : State) (n a : Nat) : (s.zeroPad n).pad.read a = if a < n then 0 else s.pad.read a := by
  have := Memory.read_filter (fun y => decide (n ≤ y)) s.pad a
  simp only [decide_eq_true_eq] at this
  rw [State.zeroPad_pad, this]
  split <;> split <;> first | rfl | omega

/-- What a byte reads as after a byte string is written. -/
theorem State.read_setPadBytes (s : State) (a : Nat) (bs : List Byte) (x : Nat) :
    (s.setPadBytes a bs).pad.read x = if a ≤ x ∧ x < a + bs.length then bs.getD (x - a) 0 else s.pad.read x := by
  rw [State.setPadBytes_pad, Memory.read_writeBytes]

/-- The scratchpad of `setPad32s` is all that it changes. -/
theorem State.setPad32s_eq (s : State) (k : Nat) (f : Nat → Half) (n : Nat) :
    s.setPad32s k f n = { s with pad := (s.setPad32s k f n).pad } := by
  induction n with
  | zero => rfl
  | succ n ih =>
    simp only [State.setPad32s, List.range_succ, List.foldl_append, List.foldl_cons, List.foldl_nil] at ih ⊢
    rw [ih]; rfl

/-- What a 32-bit word reads as after `n` of them are written from `k` on. -/
theorem State.pad32_setPad32s (s : State) (k : Nat) (f : Nat → Half) (n l : Nat) :
    (s.setPad32s k f n).pad32 l = if k ≤ l ∧ l < k + n then f (l - k) else s.pad32 l := by
  induction n with
  | zero => simp [State.setPad32s]
  | succ n ih =>
    have e : s.setPad32s k f (n + 1) = (s.setPad32s k f n).setPad32 (k + n) (f n) := by
      simp [State.setPad32s, List.range_succ]
    rw [e, State.pad32_setPad32, ih]
    by_cases h : l = k + n
    · subst h; simp
    · rw [if_neg h]
      by_cases h2 : k ≤ l ∧ l < k + n
      · rw [if_pos h2, if_pos (by omega)]
      · rw [if_neg h2, if_neg (by omega)]

/-- A byte outside the words that `setPad32s` writes is unchanged. -/
theorem State.read_setPad32s_outside (s : State) (k : Nat) (f : Nat → Half) (n : Nat) {a : Nat}
    (h : a < 4 * k ∨ 4 * (k + n) ≤ a) : (s.setPad32s k f n).pad.read a = s.pad.read a := by
  induction n with
  | zero => rfl
  | succ n ih =>
    have e : s.setPad32s k f (n + 1) = (s.setPad32s k f n).setPad32 (k + n) (f n) := by
      simp [State.setPad32s, List.range_succ]
    rw [e, State.read_setPad32, if_neg (by omega), ih (by omega)]

/-! ### Register files -/

theorem regGet_regSet {α : Type} {n : Nat} [NeZero n] (v : Vector α n) (k l : Nat) (x : α) :
    regGet (regSet v k x) l = if l % n = k % n then x else regGet v l := by
  simp only [regGet, regSet, Vector.get_eq_getElem, Fin.val_ofNat, Vector.getElem_set]
  by_cases h : k % n = l % n
  · simp [h]
  · simp [h, Ne.symm h]

theorem regGet_mod {α : Type} {n : Nat} [NeZero n] (v : Vector α n) (k : Nat) : regGet v (k % n) = regGet v k := by
  simp [regGet, Fin.ofNat]

theorem regGet_val {α : Type} {n : Nat} [NeZero n] (v : Vector α n) (k : Fin n) : regGet v k.val = v.get k := by
  simp [regGet]

theorem get_regSet {α : Type} {n : Nat} [NeZero n] (v : Vector α n) (k : Nat) (l : Fin n) (x : α) :
    (regSet v k x).get l = if l.val = k % n then x else v.get l := by
  rw [← regGet_val, regGet_regSet, regGet_val, Nat.mod_eq_of_lt l.isLt]

/-! ### Positions -/

theorem State.toNat_succ {x : Half} {n : Nat} (h : x.toNat < n) (hn : n < 2 ^ 32) : (x + 1).toNat = x.toNat + 1 := by
  have : (1 : Half).toNat = 1 := rfl
  rw [BitVec.toNat_add, this]; omega

end Sys2Proof.Machine
end

