-- ==== Sys2Proof/Laws/PerInstr.lean ====
section
/-! SUPPORT. The family `HostFormat` of LAWS.json: a property of each operation as syntax, one lemma per constructor. -/

namespace Sys2Proof

/-- The host commands (30_encoding.md R97). -/
def Instr.isHostCommand (i : Instr) : Bool :=
  match i with
  | .start | .wrmode _ _ | .wrlen _ | .wrin _ | .rdstatus | .rddigest _ | .padrd _ | .padwr _ _ => true
  | .v1b0 | .v1b1 | .v1b2 | .v1b3 | .v1b4 | .v1b5 | .v1b6 | .v1b7 | .v1b8 | .v1b9 | .v1b10 | .v1b11 | .v1b12 | .v1b13 | .v1b14 | .v1b15 => false
  | .v2b0 | .v2b1 | .v2b2 | .v2b3 | .v2b4 | .v2b5 | .v2b6 | .v2b7 | .v2b8 | .v2b9 | .v2b10 | .v2b11 | .v2b12 | .v2b13 | .v2b14 | .v2b15 => false
  | .v3b0 | .v3b1 | .v3b2 | .v3b3 | .v3b4 | .v3b5 | .v3b6 | .v3b7 | .v3b8 | .v3b9 | .v3b10 | .v3b11 | .v3b12 | .v3b13 | .v3b14 | .v3b15 => false
  | .v1f0 | .v1f1 | .v1f2 | .v1f3 => false
  | .absorb | .kfill | .slotld | .perm | .slotwb | .prime | .head1 | .br1 | .tail1 | .cfzero => false
  | .cfseed | .cfchunk | .mxsetup | .head2 | .step2 | .tail2 | .head3 | .step3 | .tail3 | .fin => false

namespace Laws

/-- An operation is selected by a host access exactly when it is a host command (R90, R97, R98). -/
def HostFormat.Statement (i : Instr) : Prop := (∃ a, encode i = .host a) ↔ i.isHostCommand = true

theorem HostFormat.v1b0 : HostFormat.Statement .v1b0 := ⟨fun ⟨_, h⟩ => (nomatch h), fun h => (nomatch h)⟩
theorem HostFormat.v1b1 : HostFormat.Statement .v1b1 := ⟨fun ⟨_, h⟩ => (nomatch h), fun h => (nomatch h)⟩
theorem HostFormat.v1b2 : HostFormat.Statement .v1b2 := ⟨fun ⟨_, h⟩ => (nomatch h), fun h => (nomatch h)⟩
theorem HostFormat.v1b3 : HostFormat.Statement .v1b3 := ⟨fun ⟨_, h⟩ => (nomatch h), fun h => (nomatch h)⟩
theorem HostFormat.v1b4 : HostFormat.Statement .v1b4 := ⟨fun ⟨_, h⟩ => (nomatch h), fun h => (nomatch h)⟩
theorem HostFormat.v1b5 : HostFormat.Statement .v1b5 := ⟨fun ⟨_, h⟩ => (nomatch h), fun h => (nomatch h)⟩
theorem HostFormat.v1b6 : HostFormat.Statement .v1b6 := ⟨fun ⟨_, h⟩ => (nomatch h), fun h => (nomatch h)⟩
theorem HostFormat.v1b7 : HostFormat.Statement .v1b7 := ⟨fun ⟨_, h⟩ => (nomatch h), fun h => (nomatch h)⟩
theorem HostFormat.v1b8 : HostFormat.Statement .v1b8 := ⟨fun ⟨_, h⟩ => (nomatch h), fun h => (nomatch h)⟩
theorem HostFormat.v1b9 : HostFormat.Statement .v1b9 := ⟨fun ⟨_, h⟩ => (nomatch h), fun h => (nomatch h)⟩
theorem HostFormat.v1b10 : HostFormat.Statement .v1b10 := ⟨fun ⟨_, h⟩ => (nomatch h), fun h => (nomatch h)⟩
theorem HostFormat.v1b11 : HostFormat.Statement .v1b11 := ⟨fun ⟨_, h⟩ => (nomatch h), fun h => (nomatch h)⟩
theorem HostFormat.v1b12 : HostFormat.Statement .v1b12 := ⟨fun ⟨_, h⟩ => (nomatch h), fun h => (nomatch h)⟩
theorem HostFormat.v1b13 : HostFormat.Statement .v1b13 := ⟨fun ⟨_, h⟩ => (nomatch h), fun h => (nomatch h)⟩
theorem HostFormat.v1b14 : HostFormat.Statement .v1b14 := ⟨fun ⟨_, h⟩ => (nomatch h), fun h => (nomatch h)⟩
theorem HostFormat.v1b15 : HostFormat.Statement .v1b15 := ⟨fun ⟨_, h⟩ => (nomatch h), fun h => (nomatch h)⟩
theorem HostFormat.v2b0 : HostFormat.Statement .v2b0 := ⟨fun ⟨_, h⟩ => (nomatch h), fun h => (nomatch h)⟩
theorem HostFormat.v2b1 : HostFormat.Statement .v2b1 := ⟨fun ⟨_, h⟩ => (nomatch h), fun h => (nomatch h)⟩
theorem HostFormat.v2b2 : HostFormat.Statement .v2b2 := ⟨fun ⟨_, h⟩ => (nomatch h), fun h => (nomatch h)⟩
theorem HostFormat.v2b3 : HostFormat.Statement .v2b3 := ⟨fun ⟨_, h⟩ => (nomatch h), fun h => (nomatch h)⟩
theorem HostFormat.v2b4 : HostFormat.Statement .v2b4 := ⟨fun ⟨_, h⟩ => (nomatch h), fun h => (nomatch h)⟩
theorem HostFormat.v2b5 : HostFormat.Statement .v2b5 := ⟨fun ⟨_, h⟩ => (nomatch h), fun h => (nomatch h)⟩
theorem HostFormat.v2b6 : HostFormat.Statement .v2b6 := ⟨fun ⟨_, h⟩ => (nomatch h), fun h => (nomatch h)⟩
theorem HostFormat.v2b7 : HostFormat.Statement .v2b7 := ⟨fun ⟨_, h⟩ => (nomatch h), fun h => (nomatch h)⟩
theorem HostFormat.v2b8 : HostFormat.Statement .v2b8 := ⟨fun ⟨_, h⟩ => (nomatch h), fun h => (nomatch h)⟩
theorem HostFormat.v2b9 : HostFormat.Statement .v2b9 := ⟨fun ⟨_, h⟩ => (nomatch h), fun h => (nomatch h)⟩
theorem HostFormat.v2b10 : HostFormat.Statement .v2b10 := ⟨fun ⟨_, h⟩ => (nomatch h), fun h => (nomatch h)⟩
theorem HostFormat.v2b11 : HostFormat.Statement .v2b11 := ⟨fun ⟨_, h⟩ => (nomatch h), fun h => (nomatch h)⟩
theorem HostFormat.v2b12 : HostFormat.Statement .v2b12 := ⟨fun ⟨_, h⟩ => (nomatch h), fun h => (nomatch h)⟩
theorem HostFormat.v2b13 : HostFormat.Statement .v2b13 := ⟨fun ⟨_, h⟩ => (nomatch h), fun h => (nomatch h)⟩
theorem HostFormat.v2b14 : HostFormat.Statement .v2b14 := ⟨fun ⟨_, h⟩ => (nomatch h), fun h => (nomatch h)⟩
theorem HostFormat.v2b15 : HostFormat.Statement .v2b15 := ⟨fun ⟨_, h⟩ => (nomatch h), fun h => (nomatch h)⟩
theorem HostFormat.v3b0 : HostFormat.Statement .v3b0 := ⟨fun ⟨_, h⟩ => (nomatch h), fun h => (nomatch h)⟩
theorem HostFormat.v3b1 : HostFormat.Statement .v3b1 := ⟨fun ⟨_, h⟩ => (nomatch h), fun h => (nomatch h)⟩
theorem HostFormat.v3b2 : HostFormat.Statement .v3b2 := ⟨fun ⟨_, h⟩ => (nomatch h), fun h => (nomatch h)⟩
theorem HostFormat.v3b3 : HostFormat.Statement .v3b3 := ⟨fun ⟨_, h⟩ => (nomatch h), fun h => (nomatch h)⟩
theorem HostFormat.v3b4 : HostFormat.Statement .v3b4 := ⟨fun ⟨_, h⟩ => (nomatch h), fun h => (nomatch h)⟩
theorem HostFormat.v3b5 : HostFormat.Statement .v3b5 := ⟨fun ⟨_, h⟩ => (nomatch h), fun h => (nomatch h)⟩
theorem HostFormat.v3b6 : HostFormat.Statement .v3b6 := ⟨fun ⟨_, h⟩ => (nomatch h), fun h => (nomatch h)⟩
theorem HostFormat.v3b7 : HostFormat.Statement .v3b7 := ⟨fun ⟨_, h⟩ => (nomatch h), fun h => (nomatch h)⟩
theorem HostFormat.v3b8 : HostFormat.Statement .v3b8 := ⟨fun ⟨_, h⟩ => (nomatch h), fun h => (nomatch h)⟩
theorem HostFormat.v3b9 : HostFormat.Statement .v3b9 := ⟨fun ⟨_, h⟩ => (nomatch h), fun h => (nomatch h)⟩
theorem HostFormat.v3b10 : HostFormat.Statement .v3b10 := ⟨fun ⟨_, h⟩ => (nomatch h), fun h => (nomatch h)⟩
theorem HostFormat.v3b11 : HostFormat.Statement .v3b11 := ⟨fun ⟨_, h⟩ => (nomatch h), fun h => (nomatch h)⟩
theorem HostFormat.v3b12 : HostFormat.Statement .v3b12 := ⟨fun ⟨_, h⟩ => (nomatch h), fun h => (nomatch h)⟩
theorem HostFormat.v3b13 : HostFormat.Statement .v3b13 := ⟨fun ⟨_, h⟩ => (nomatch h), fun h => (nomatch h)⟩
theorem HostFormat.v3b14 : HostFormat.Statement .v3b14 := ⟨fun ⟨_, h⟩ => (nomatch h), fun h => (nomatch h)⟩
theorem HostFormat.v3b15 : HostFormat.Statement .v3b15 := ⟨fun ⟨_, h⟩ => (nomatch h), fun h => (nomatch h)⟩
theorem HostFormat.v1f0 : HostFormat.Statement .v1f0 := ⟨fun ⟨_, h⟩ => (nomatch h), fun h => (nomatch h)⟩
theorem HostFormat.v1f1 : HostFormat.Statement .v1f1 := ⟨fun ⟨_, h⟩ => (nomatch h), fun h => (nomatch h)⟩
theorem HostFormat.v1f2 : HostFormat.Statement .v1f2 := ⟨fun ⟨_, h⟩ => (nomatch h), fun h => (nomatch h)⟩
theorem HostFormat.v1f3 : HostFormat.Statement .v1f3 := ⟨fun ⟨_, h⟩ => (nomatch h), fun h => (nomatch h)⟩
theorem HostFormat.absorb : HostFormat.Statement .absorb := ⟨fun ⟨_, h⟩ => (nomatch h), fun h => (nomatch h)⟩
theorem HostFormat.kfill : HostFormat.Statement .kfill := ⟨fun ⟨_, h⟩ => (nomatch h), fun h => (nomatch h)⟩
theorem HostFormat.slotld : HostFormat.Statement .slotld := ⟨fun ⟨_, h⟩ => (nomatch h), fun h => (nomatch h)⟩
theorem HostFormat.perm : HostFormat.Statement .perm := ⟨fun ⟨_, h⟩ => (nomatch h), fun h => (nomatch h)⟩
theorem HostFormat.slotwb : HostFormat.Statement .slotwb := ⟨fun ⟨_, h⟩ => (nomatch h), fun h => (nomatch h)⟩
theorem HostFormat.prime : HostFormat.Statement .prime := ⟨fun ⟨_, h⟩ => (nomatch h), fun h => (nomatch h)⟩
theorem HostFormat.head1 : HostFormat.Statement .head1 := ⟨fun ⟨_, h⟩ => (nomatch h), fun h => (nomatch h)⟩
theorem HostFormat.br1 : HostFormat.Statement .br1 := ⟨fun ⟨_, h⟩ => (nomatch h), fun h => (nomatch h)⟩
theorem HostFormat.tail1 : HostFormat.Statement .tail1 := ⟨fun ⟨_, h⟩ => (nomatch h), fun h => (nomatch h)⟩
theorem HostFormat.cfzero : HostFormat.Statement .cfzero := ⟨fun ⟨_, h⟩ => (nomatch h), fun h => (nomatch h)⟩
theorem HostFormat.cfseed : HostFormat.Statement .cfseed := ⟨fun ⟨_, h⟩ => (nomatch h), fun h => (nomatch h)⟩
theorem HostFormat.cfchunk : HostFormat.Statement .cfchunk := ⟨fun ⟨_, h⟩ => (nomatch h), fun h => (nomatch h)⟩
theorem HostFormat.mxsetup : HostFormat.Statement .mxsetup := ⟨fun ⟨_, h⟩ => (nomatch h), fun h => (nomatch h)⟩
theorem HostFormat.head2 : HostFormat.Statement .head2 := ⟨fun ⟨_, h⟩ => (nomatch h), fun h => (nomatch h)⟩
theorem HostFormat.step2 : HostFormat.Statement .step2 := ⟨fun ⟨_, h⟩ => (nomatch h), fun h => (nomatch h)⟩
theorem HostFormat.tail2 : HostFormat.Statement .tail2 := ⟨fun ⟨_, h⟩ => (nomatch h), fun h => (nomatch h)⟩
theorem HostFormat.head3 : HostFormat.Statement .head3 := ⟨fun ⟨_, h⟩ => (nomatch h), fun h => (nomatch h)⟩
theorem HostFormat.step3 : HostFormat.Statement .step3 := ⟨fun ⟨_, h⟩ => (nomatch h), fun h => (nomatch h)⟩
theorem HostFormat.tail3 : HostFormat.Statement .tail3 := ⟨fun ⟨_, h⟩ => (nomatch h), fun h => (nomatch h)⟩
theorem HostFormat.fin : HostFormat.Statement .fin := ⟨fun ⟨_, h⟩ => (nomatch h), fun h => (nomatch h)⟩
theorem HostFormat.start : HostFormat.Statement .start := ⟨fun _ => rfl, fun _ => ⟨_, rfl⟩⟩
theorem HostFormat.wrmode (ver : BitVec 2) (padded : Bool) : HostFormat.Statement (.wrmode ver padded) := ⟨fun _ => rfl, fun _ => ⟨_, rfl⟩⟩
theorem HostFormat.wrlen (n : Half) : HostFormat.Statement (.wrlen n) := ⟨fun _ => rfl, fun _ => ⟨_, rfl⟩⟩
theorem HostFormat.wrin (d : InWrite) : HostFormat.Statement (.wrin d) := by
  cases d <;> exact ⟨fun _ => rfl, fun _ => ⟨_, rfl⟩⟩
theorem HostFormat.rdstatus : HostFormat.Statement .rdstatus := ⟨fun _ => rfl, fun _ => ⟨_, rfl⟩⟩
theorem HostFormat.rddigest (d : DigestRef) : HostFormat.Statement (.rddigest d) := by
  cases d <;> exact ⟨fun _ => rfl, fun _ => ⟨_, rfl⟩⟩
theorem HostFormat.padrd (k : BitVec 32) : HostFormat.Statement (.padrd k) := ⟨fun _ => rfl, fun _ => ⟨_, rfl⟩⟩
theorem HostFormat.padwr (k : BitVec 32) (w : Word) : HostFormat.Statement (.padwr k w) := ⟨fun _ => rfl, fun _ => ⟨_, rfl⟩⟩

end Laws

end Sys2Proof
end

