-- ==== Sys2Proof/Laws/Steps.lean ====
section
/-! SUPPORT. What the shared steps do, said once: the step of `BR1`, of `STEP2`, of `STEP3` with any table entry, the pass of
`KFILL`, and the reverse pass of `PERM`. -/

namespace Sys2Proof.Machine

@[simp] theorem State.goto_pad64 (s : State) (st i j k) : (s.goto st i j).pad64 k = s.pad64 k := rfl

/-- The step of `BR1` with any entry (43_v1_mix.md R172). -/
theorem v1Step_spec (entry : V1Operands → Word) (s : State) (h : s.jNat ≤ 31) :
    ∃ t, v1Step entry s = .next t ∧ V1Effect (entry s.v1Operands).toNat s t := by
  refine ⟨_, rfl, ?_⟩
  by_cases hj : s.jNat < 31
  · have := State.toNat_succ (x := s.j) (n := 31) hj (by omega)
    simp only [v1Steps, show (32 - 1 : Nat) = 31 from rfl, if_pos hj]
    exact ⟨rfl, rfl, rfl, fun _ => ⟨rfl, this⟩, fun h => by omega⟩
  · simp only [v1Steps, show (32 - 1 : Nat) = 31 from rfl, if_neg hj]
    exact ⟨rfl, rfl, rfl, fun h => by omega, fun _ => ⟨rfl, rfl⟩⟩

/-- The step of `STEP2` with any entry (45_v2_mix.md R222). -/
theorem v2Step_spec (entry : MixOperands → Word) (s : State) (h : s.jNat < 27456) (hr : s.r.toNat < 54912) :
    ∃ t, v2Step entry s = .next t ∧ V2Effect (entry s.v2Operands).toNat s t := by
  have e : s.jNat < half2 ∧ s.r.toNat < words2 := ⟨h, hr⟩
  refine ⟨_, by simp only [v2Step, if_pos e]; rfl, ?_⟩
  have hs := State.toNat_succ (x := s.j) (n := 27456) h (by omega)
  by_cases hj : s.jNat < 27455
  all_goals
    simp only [half2, show (27456 - 1 : Nat) = 27455 from rfl, hj, if_true, if_false]
    refine ⟨rfl, toNat_rotl _ _, toNat_nextCursor _ (by decide) (by decide) _, ?_, ?_, ?_, rfl, ?_, ?_⟩
    · rw [State.goto_pad64, State.pad64_setPad64, if_neg (by omega), State.pad64_setPad64, if_pos rfl]; rfl
    · rw [State.goto_pad64, State.pad64_setPad64, if_pos rfl, State.mb, State.pad64_setPad64, if_neg (by omega)]; rfl
    · intro a h1 h2
      simp only [State.goto_pad]
      rw [State.read_setPad64, if_neg (by omega), State.read_setPad64, if_neg (by omega)]
    · intro hj'; first | exact ⟨rfl, hs⟩ | exact absurd hj' hj
    · intro hj'; first | (exact absurd hj (by omega)) | exact ⟨rfl, rfl⟩

/-- `V3Effect` in the words of the model's definitions (46_v3_mix.md R251). -/
theorem V3Effect.of_defs {v : Word} {s t : State}
    (h : let w := s.v3Word v t.result
      let ia := v3IndexA w t.result
      let ib := v3IndexB w t.result
      t = { s with result := t.result, r := t.r, stage := t.stage, i := t.i, j := t.j, pad := t.pad } ∧
      t.r.toNat = (s.r.toNat + 1) % 67968 ∧ t.result.toNat = natRotl (v.toNat ^^^ s.result.toNat) t.r.toNat ∧
      ia < 33984 ∧ ib < 33984 ∧ t.pad64 ia = w ∧
      t.pad64 (33984 + ib) = s.pad64 (33984 + ib) ^^^ (s.pad64 ia ^^^ rotr w (s.iNat + s.jNat)) ∧
      (∀ a, (a < 8 * ia ∨ 8 * ia + 8 ≤ a) → (a < 8 * (33984 + ib) ∨ 8 * (33984 + ib) + 8 ≤ a) →
        t.pad.read a = s.pad.read a) ∧
      t.i = s.i ∧
      (s.jNat < 33983 → t.stage = .v3Step ∧ t.jNat = s.jNat + 1) ∧ (s.jNat = 33983 → t.stage = .v3Tail ∧ t.j = 0)) :
    V3Effect v.toNat s t := by
  have hv : (BitVec.ofNat 64 v.toNat : Word) = v := by simp
  simp only [V3Effect, hv]
  exact h

/-- The step of `STEP3` with any entry (46_v3_mix.md R251). -/
theorem v3Step_spec (entry : MixOperands → Word) (s : State) (h : s.jNat < 33984) (hr : s.r.toNat < 67968) :
    ∃ t, v3Step entry s = .next t ∧ V3Effect (entry s.v3Operands).toNat s t := by
  have e : s.r.toNat < words3 := hr
  refine ⟨_, by simp only [v3Step, if_pos e]; rfl, ?_⟩
  have hs := State.toNat_succ (x := s.j) (n := 33984) h (by omega)
  refine V3Effect.of_defs ?_
  by_cases hj : s.jNat < 33983
  all_goals
    simp only [half3, show (33984 - 1 : Nat) = 33983 from rfl, hj, if_true, if_false, State.goto_result, State.setPad64_result]
    generalize hres : rotl (entry s.v3Operands ^^^ s.result) s.v3Operands.r.toNat = res
    generalize hw : s.v3Word (entry s.v3Operands) res = w
    have l1 := v3IndexA_lt w res
    have l2 := v3IndexB_lt w res
    generalize v3IndexA w res = ia at *
    generalize v3IndexB w res = ib at *
    refine ⟨by simp only [State.goto, State.setPad64], toNat_nextCursor _ (by decide) (by decide) _, ?_, l1, l2, ?_, ?_, ?_, rfl, ?_, ?_⟩
    · rw [← hres, ← BitVec.toNat_xor]; exact toNat_rotl _ _
    · rw [State.goto_pad64, State.pad64_setPad64, if_neg (by omega), State.pad64_setPad64, if_pos rfl]
    · rw [State.goto_pad64, State.pad64_setPad64, if_pos rfl, State.mb, State.pad64_setPad64, if_neg (by omega)]; rfl
    · intro a h1 h2
      simp only [State.goto_pad]
      rw [State.read_setPad64, if_neg (by omega), State.read_setPad64, if_neg (by omega)]
    · first | exact fun _ => ⟨rfl, hs⟩ | exact fun hj' => hj'.elim
    · first | exact fun _ => ⟨rfl, rfl⟩ | exact fun hj' => absurd hj (by omega)

/-- The position after a word of a fill row is all that `fillNext` changes. -/
theorem State.fillNext_eq (s : State) :
    s.fillNext = { s with stage := s.fillNext.stage, i := s.fillNext.i, j := s.fillNext.j } := by
  simp only [State.fillNext]
  split
  · rfl
  · split <;> rfl

/-- The pass of `KFILL` with any select (42_v1_fill_permute.md R151). -/
theorem State.fillPass_spec (s : State) (op : Word → Word → Word) (hi : s.iNat ≤ 1310) (hj : s.jNat < rowLength s.iNat) :
    FillEffect (op s.fillLeft s.fillRight) s (s.fillPass op) := by
  simp only [State.fillPass]
  generalize hb : (regGet s.kstate s.jNat ^^^ s.rand) ^^^ op s.fillLeft s.fillRight = b
  have ej := State.toNat_succ (x := s.j) (n := 25) (by have := hj; simp only [rowLength, State.jNat] at this; split at this <;> omega)
    (by omega)
  have ei := State.toNat_succ (x := s.i) (n := 1311) (by simp only [State.iNat] at hi; omega) (by omega)
  have hpad : ({ s.setPad64 (25 * s.iNat + s.jNat) b with rand := b } : State).fillNext.pad =
      (s.setPad64 (25 * s.iNat + s.jNat) b).pad := by rw [State.fillNext_eq]
  have hrand : ({ s.setPad64 (25 * s.iNat + s.jNat) b with rand := b } : State).fillNext.rand = b := by
    rw [State.fillNext_eq]
  refine ⟨by rw [State.fillNext_eq]; rfl, by rw [hrand, hb], ?_, ?_, ?_, ?_, ?_⟩
  · rw [hrand]
    simp only [State.pad64, hpad]
    exact (State.pad64_setPad64 s _ _ b).trans (if_pos rfl)
  · intro a ha
    rw [hpad, State.read_setPad64, if_neg (by omega)]
  · intro h
    have : ({ s.setPad64 (25 * s.iNat + s.jNat) b with rand := b } : State).fillNext =
        ({ s.setPad64 (25 * s.iNat + s.jNat) b with rand := b } : State).goto .v1Fill s.i (s.j + 1) := if_pos h
    rw [this]; exact ⟨rfl, rfl, ej⟩
  · intro h1 h2
    have : ({ s.setPad64 (25 * s.iNat + s.jNat) b with rand := b } : State).fillNext =
        ({ s.setPad64 (25 * s.iNat + s.jNat) b with rand := b } : State).goto .v1Fill (s.i + 1) 0 :=
      (if_neg (by show ¬ s.jNat + 1 < rowLength s.iNat; omega)).trans (if_pos h2)
    rw [this]; exact ⟨rfl, ei, rfl⟩
  · intro h1 h2
    have : ({ s.setPad64 (25 * s.iNat + s.jNat) b with rand := b } : State).fillNext =
        ({ s.setPad64 (25 * s.iNat + s.jNat) b with rand := b } : State).goto .v1Slotld 0 0 :=
      (if_neg (by show ¬ s.jNat + 1 < rowLength s.iNat; omega)).trans (if_neg (by show ¬ s.iNat < 1310; omega))
    rw [this]; exact ⟨rfl, rfl, rfl⟩

/-- The reverse pass of `PERM` changes the slots, the indices and `TOTALSUM` alone. -/
theorem State.permPhase2_eq (n : Nat) (s : State) :
    State.permPhase2 n s = { s with
      slots := (State.permPhase2 n s).slots, indices := (State.permPhase2 n s).indices,
      totalSum := (State.permPhase2 n s).totalSum } := by
  induction n generalizing s with
  | zero => rfl
  | succ n ih => simp only [State.permPhase2]; rw [ih]; rfl

end Sys2Proof.Machine
end

