-- ==== Sys2Proof/Tests/Slice0.lean ====
section
/-! SUPPORT. Tests on fixed values, each taken from the spec's own examples (the rule is named) or worked by hand from a rule;
and, for each statement with hypotheses, a state that meets them. -/

namespace Sys2Proof.Tests

open Sys2Proof.Machine

-- One theorem at a time: each is a kernel evaluation, and a thread for each would be too many.
set_option Elab.async false

/-- A field of the next state; nothing for a stop. -/
def after {α : Type} (r : Result) (f : State → α) : Option α :=
  match r with
  | .next s => some (f s)
  | .fault _ => none
  | .refused _ => none

/-- What a hash call returned; nothing for a stop. -/
def returned (r : Host.Outcome HashResult Fault Refusal) : Option HashResult :=
  match r with
  | .next x => some x
  | .fault _ => none
  | .refused _ => none

/-- A state with some words of the scratchpad set. -/
def withWords (s : State) (ws : List (Nat × Word)) : State := ws.foldl (fun s p => s.setPad64 p.1 p.2) s

/-- The bytes of a hexadecimal number of `n` bytes, byte 0 first. -/
def hexBytes (n x : Nat) : List Byte := (List.range n).map fun k => BitVec.ofNat 8 (x / 256 ^ (n - 1 - k))

/-- The number that a byte string is written as, byte 0 first. -/
def hexOf (l : List Byte) : Nat := l.foldl (fun acc b => 256 * acc + b.toNat) 0

/-! ### Well-formedness: each check refuses an ill-formed term and admits its neighbour -/

theorem test_wf_wrin_byte :
    (Instr.wrin (.byte 0xfffff000 1)).wellFormed = false ∧ (Instr.wrin (.byte 0xffffefff 1)).wellFormed = true := by decide
theorem test_wf_wrin_word :
    (Instr.wrin (.word 0x3ffffc00 1)).wellFormed = false ∧ (Instr.wrin (.word 0x3ffffbff 1)).wellFormed = true := by decide
theorem test_wf_padrd :
    (Instr.padrd 67968).wellFormed = false ∧ (Instr.padrd 67967).wellFormed = true := by decide
theorem test_wf_padwr :
    (Instr.padwr 67968 1).wellFormed = false ∧ (Instr.padwr 67967 1).wellFormed = true := by decide

/-! ### Decoding: the selectors of 30_encoding.md, written out bit by bit, every constructor -/

/-- Format `N4`, `VER = 1` (R91, R99). -/
theorem test_decode_v1 :
    ([0b010000, 0b010001, 0b010010, 0b010011, 0b010100, 0b010101, 0b010110, 0b010111, 0b011000, 0b011001, 0b011010, 0b011011, 0b011100, 0b011101, 0b011110, 0b011111] :
      List (BitVec 6)).map (fun w => decode (.n4 w)) =
    [.v1b0, .v1b1, .v1b2, .v1b3, .v1b4, .v1b5, .v1b6, .v1b7, .v1b8, .v1b9, .v1b10, .v1b11, .v1b12, .v1b13, .v1b14, .v1b15].map Except.ok := by
  decide +kernel

/-- Format `N4`, `VER = 2` (R91, R99). -/
theorem test_decode_v2 :
    ([0b100000, 0b100001, 0b100010, 0b100011, 0b100100, 0b100101, 0b100110, 0b100111, 0b101000, 0b101001, 0b101010, 0b101011, 0b101100, 0b101101, 0b101110, 0b101111] :
      List (BitVec 6)).map (fun w => decode (.n4 w)) =
    [.v2b0, .v2b1, .v2b2, .v2b3, .v2b4, .v2b5, .v2b6, .v2b7, .v2b8, .v2b9, .v2b10, .v2b11, .v2b12, .v2b13, .v2b14, .v2b15].map Except.ok := by
  decide +kernel

/-- Format `N4`, `VER = 3` (R91, R99). -/
theorem test_decode_v3 :
    ([0b110000, 0b110001, 0b110010, 0b110011, 0b110100, 0b110101, 0b110110, 0b110111, 0b111000, 0b111001, 0b111010, 0b111011, 0b111100, 0b111101, 0b111110, 0b111111] :
      List (BitVec 6)).map (fun w => decode (.n4 w)) =
    [.v3b0, .v3b1, .v3b2, .v3b3, .v3b4, .v3b5, .v3b6, .v3b7, .v3b8, .v3b9, .v3b10, .v3b11, .v3b12, .v3b13, .v3b14, .v3b15].map Except.ok := by
  decide +kernel

/-- Format `F2` (R95). -/
theorem test_decode_f2 :
    ([0b00, 0b01, 0b10, 0b11] : List (BitVec 2)).map (fun w => decode (.f2 w)) =
      [.v1f0, .v1f1, .v1f2, .v1f3].map Except.ok := by decide +kernel

/-- Format `SEQ` (R96; 10_state.md R25). -/
theorem test_decode_seq :
    ([0b00001, 0b00010, 0b00011, 0b00100, 0b00101, 0b00110, 0b00111, 0b01000, 0b01001, 0b01010, 0b01011, 0b01100,
      0b01101, 0b01110, 0b01111, 0b10000, 0b10001, 0b10010, 0b10011, 0b10100] : List (BitVec 5)).map
        (fun w => decode (.seq w)) =
      [.absorb, .kfill, .slotld, .perm, .slotwb, .prime, .head1, .br1, .tail1, .cfzero, .cfseed, .cfchunk, .mxsetup,
        .head2, .step2, .tail2, .head3, .step3, .tail3, .fin].map Except.ok := by decide +kernel

/-- Format `HOST` (R97; 10_state.md R21): the register offsets, and `MODE` with bits 31:3 set (47_finalize_host.md R298). -/
theorem test_decode_host :
    ([.write32 0x00 1, .write32 0x04 0xfffffffb, .write32 0x08 200, .write8 0x1007 0xab, .write32 0x1008 0x44332211,
      .read32 0x0c, .read8 0x3f, .read32 0x3c, .padRead 5, .padWrite 6 7] : List HostAccess).map (fun a => decode (.host a)) =
      [.start, .wrmode 3 false, .wrlen 200, .wrin (.byte 7 0xab), .wrin (.word 2 0x44332211), .rdstatus,
        .rddigest (.byte 31), .rddigest (.word 7), .padrd 5, .padwr 6 7].map Except.ok := by decide +kernel

/-- The selectors that name nothing (R92, R96, R97, R100). -/
theorem test_decode_reserved :
    decode (.n4 0b001111) = .error .versionZero ∧ decode (.seq 0b00000) = .error .resting ∧
      decode (.seq 0b10101) = .error .resting ∧ decode (.seq 0b10110) = .error .resting ∧
      decode (.seq 0b10111) = .error .reservedStage ∧ decode (.host (.write32 0x00 0)) = .error .noCommand ∧
      decode (.host (.read32 0x10)) = .error .noCommand ∧ decode (.host (.write8 0x0fff 1)) = .error .noCommand := by
  decide +kernel

/-- The words of the opcode table, in whole bytes (log 8). -/
theorem test_table_words :
    decodeTableWord 8 0b010011 = some .tail3 ∧ decodeTableWord 6 0b010011 = some .v1b3 ∧
      decodeTableWord 8 0b010101 = some .v1b5 ∧ decodeTableWord 8 0b101111 = some .v2b15 ∧
      decodeTableWord 8 0 = some .v1f0 ∧ decodeTableWord 2 0b11 = some .v1f3 ∧ decodeTableWord 5 0b00010 = some .kfill ∧
      decodeTableWord 6 0b001111 = none ∧ decodeTableWord 5 0b10111 = none := by decide +kernel

/-- A placed instruction is what the next step runs (log 7, log 9), in each format. -/
theorem test_withFetchWord :
    let t := State.reset.withFetchWord 8 0b111101
    let u := State.reset.withFetchWord 8 0b011111
    after (step t) id = after (exec .v3b13 t) id ∧ t.fetch = some .step3 ∧
      after (step u) id = after (exec .v1b15 u) id ∧ u.fetch = some .br1 ∧
      (State.reset.withFetchWord 8 0b01100).fetch = some .cfchunk ∧
      (State.reset.withFetchWord 2 0b10).fetch = some .v1f2 := by decide +kernel
/-! ### The primitive units: the check values of 48_primitives.md -/

/-- R310, on the all-zero state. -/
theorem test_keccak :
    let s := keccakPerm (Vector.replicate 25 0)
    s.get 0 = 0x8e5e5438b9a78617 ∧ s.get 1 = 0xd9cd6a50f259d01e ∧ s.get 24 = 0xcffd0d76222ca01c := by decide +kernel

/-- R311: the start of the second block of the all-zero key and nonce; key bytes 0 to 31, nonce bytes 0 to 11. -/
theorem test_chacha :
    hexOf ((chacha8Keystream (List.replicate 32 0) (List.replicate 12 0) 80).drop 64) =
      0xd2aefa0deaa5c151bf0adb6c01f2a5ad ∧
    hexOf (chacha8Keystream ((List.range 32).map (BitVec.ofNat 8)) ((List.range 12).map (BitVec.ofNat 8)) 16) =
      0x2e214501d03825e75ac476151531939d := by decide +kernel

/-- R312: the empty message. -/
theorem test_blake3 :
    hexOf (blake3 []) = 0xaf1349b9f5f9a1a6a0404dea36dcc9499bcb25c9adc112b7cc9a93cae41f3262 := by decide +kernel

/-- R313: round 1 of the standard's example. -/
theorem test_aes :
    hexOf (aesRound (hexBytes 16 0x00102030405060708090a0b0c0d0e0f0) (hexBytes 16 0xd6aa74fdd2af72fadaa678f1d6ab76fe)) =
      0x89d810e8855ace682d1843d8cb128fe4 := by decide +kernel

/-- 41_aes_shim.md R147, rows 1, 4 and 5. -/
theorem test_shim :
    shim 1 0 0 = 0x9c9c9c9c9c9c9c9c ∧ shim 2 0x0123456789abcdef 0xfedcba9876543210 = 0x529e1d3d421286ee ∧
      shim 3 0 0 = 0xbfe8bafbf9e3b7ef := by decide +kernel

/-! ### The v1 fill and permutation (42_v1_fill_permute.md) -/

/-- R150's example: the 23 ASCII bytes, padded. -/
theorem test_absorb :
    let s := { State.reset with
      padded := true, len := 23, input := Memory.writeBytes [] 0 (hexBytes 23 0x78656c69732d68617368696e672d616c676f726974686d) }
    after (exec .absorb s) (fun t => (t.kstate.toList.take 4, t.stage)) =
      some ([0x61682d73696c6578, 0x6c612d676e696873, 0x006d687469726f67, 0], .v1Fill) := by decide +kernel

/-- Row 0 of R156, from the all-zero lanes. -/
theorem test_kfill :
    after (exec .kfill { State.reset with stage := .v1Fill })
      (fun t => (t.pad64 0, t.pad64 1, t.pad64 24, t.pad64 25, t.rand, t.i, t.j)) =
    some (0xd02bd9ae1957493c, 0x097653b8abae9927, 0xe087b85a3dd4f7c4, 0, 0xe087b85a3dd4f7c4, 1, 0) := by decide +kernel

/-- The select examples of R152 to R155 as `w`, in a pass with `KSTATE[0] = RAND = 0` at word 0 of row 3. -/
def fillState (left right : Word) : State :=
  { State.reset with stage := .v1Fill, i := 3, kstate := regSet (regSet State.reset.kstate 1 left) 2 right }
theorem test_v1f0 : after (exec .v1f0 (fillState 0xf0 0xfc)) (fun t => (t.pad64 75, t.rand)) = some (0xf0, 0xf0) := by
  decide +kernel
theorem test_v1f1 : after (exec .v1f1 (fillState 0xf0 0xfd)) (·.pad64 75) = some 0xffffffffffffff0f := by decide +kernel
theorem test_v1f2 : after (exec .v1f2 (fillState 0xf0 0xfe)) (·.pad64 75) = some 0xfffffffffffffff1 := by decide +kernel
theorem test_v1f3 : after (exec .v1f3 (fillState 0xf0 0xff)) (fun t => (t.pad64 75, t.j)) = some (0xf, 1) := by decide +kernel

/-- R157's example. -/
theorem test_slotld :
    after (exec .slotld (withWords State.reset [(32767, 0xaada1ab429cf6ffc)])) (fun t => (t.slots.get 254, t.slots.get 255)) =
      some (0x29cf6ffc, 0xaada1ab4) := by decide +kernel

/-- The first line of R163: one iteration of the reverse pass, at `slotIdx = 255`. -/
theorem test_perm_pass :
    let s := { State.reset with
      totalSum := 0x528731dd, indices := Vector.ofFn fun k => BitVec.ofNat 8 k.val
      slots := regSet State.reset.slots 177 0xbc5293e6
      pad := Memory.writeBytes (Memory.writeBytes [] 708 (le32 0x2204ba40)) 1020 (le32 0xc07157b1) }
    let t := s.permPass 255
    t.slots.get 177 = 0x30de8003 ∧ t.totalSum = 0x9690a65d ∧ t.indices.get 177 = 255 := by decide +kernel

/-- Worked by hand from R159: slot 0 negative, `PAD32[0] = 5`, `PAD32[1] = 7`. -/
theorem test_perm_sum :
    let s := { State.reset with
      stage := .v1Perm, slots := regSet State.reset.slots 0 0x80000000, pad := [(0, 5), (4, 7)], totalSum := 9 }
    s.permPhase1.totalSum = 2 ∧ s.permPhase1.indices.get 255 = 255 := by decide +kernel

/-- R161's example. -/
theorem test_slotwb :
    let slots := regSet (regSet (regSet State.reset.slots 0 0x4427cf3c) 1 0xef8bba64) 255 0x03fa3feb
    after (exec .slotwb (withWords { State.reset with slots := slots } [(32639, 0x108b595c5e7862b3), (32700, 7)]))
      (fun t => (t.pad64 32639, t.pad64 32640, t.pad64 32700, t.pad64 32767)) =
    some (0x108b595c5e7862b3, 0xef8bba644427cf3c, 0, 0x03fa3feb00000000) := by decide +kernel

/-! ### The v1 mix (43_v1_mix.md) -/

/-- R170's example. -/
theorem test_prime :
    after (exec .prime (withWords State.reset
        [(1375, 0x7c2ee86093be02b4), (3299, 0x8c902a07a7f6b931), (32767, 0x03fa3feb42af8ce3)]))
      (fun t => (t.addrA, t.addrB, t.bufA.get 0, t.bufB.get 0)) =
    some (1375, 3299, 0x7c2ee86093be02b4, 0x8c902a07a7f6b931) := by decide +kernel

/-- R170: the source words wrap from word 32767 to word 0. -/
theorem test_prime_wrap :
    after (exec .prime (withWords State.reset [(0, 9), (32767, 32767)])) (fun t => (t.addrB, t.bufB.get 0, t.bufB.get 1)) =
      some (32767, 32767, 9) := by decide +kernel

/-- R171's example. -/
theorem test_head1 :
    after (exec .head1 { State.reset with
        bufA := regSet State.reset.bufA 0 0x7c2ee86093be02b4, bufB := regSet State.reset.bufB 0 0x8c902a07a7f6b931 })
      (fun t => (t.result, t.stage)) = some (0xa57519fdf2e2ab65, .v1Br) := by decide +kernel

/-- The operands of the examples of R173 to R188, in a step at `I = 40`: elements `(j + 40) mod 42` of the buffers. -/
def v1State (j : Half) : State :=
  { State.reset with
    ver := 1, stage := .v1Br, i := 40, j := j, result := 0x0123456789abcdef
    bufA := regSet State.reset.bufA (j.toNat + 40) 0xfedcba9876543210
    bufB := regSet State.reset.bufB (j.toNat + 40) 0x0f1e2d3c4b5a6978 }

theorem test_v1b0 : after (exec .v1b0 (v1State 5)) (·.result) = some 0x2b7681cd7e23d498 := by decide +kernel
theorem test_v1b1 : after (exec .v1b1 (v1State 5)) (·.result) = some 0x254be996bcd2700f := by decide +kernel
theorem test_v1b2 : after (exec .v1b2 (v1State 5)) (·.result) = some 0x0000000000000000 := by decide +kernel
theorem test_v1b3 : after (exec .v1b3 (v1State 5)) (·.result) = some 0x0e3d685bc2f1a497 := by decide +kernel
theorem test_v1b4 : after (exec .v1b4 (v1State 5)) (·.result) = some 0x0cd9a2b348055667 := by decide +kernel
theorem test_v1b5 : after (exec .v1b5 (v1State 5)) (·.result) = some 0xee9dc83ba3520577 := by decide +kernel
theorem test_v1b6 : after (exec .v1b6 (v1State 5)) (·.result) = some 0x116237c45cadfa87 := by decide +kernel
theorem test_v1b7 : after (exec .v1b7 (v1State 5)) (·.result) = some 0x9b8f9563c00bca6f := by decide +kernel
theorem test_v1b8 : after (exec .v1b8 (v1State 5)) (·.result) = some 0x0f3f6d7fcbfbedff := by decide +kernel
theorem test_v1b9 : after (exec .v1b9 (v1State 5)) (·.result) = some 0xfefdfadbf6f5b697 := by decide +kernel
theorem test_v1b10 : after (exec .v1b10 (v1State 5)) (·.result) = some 0xf0e1d2c3b4a59687 := by decide +kernel
theorem test_v1b11 : after (exec .v1b11 (v1State 5)) (·.result) = some 0xfc9a30576503a9ce := by decide +kernel
theorem test_v1b12 : after (exec .v1b12 (v1State 5)) (·.result) = some 0x0cd9a2b348055666 := by decide +kernel
theorem test_v1b13 : after (exec .v1b13 (v1State 5)) (·.result) = some 0xfedcba9876543210 := by decide +kernel
theorem test_v1b14 : after (exec .v1b14 (v1State 5)) (·.result) = some 0x0365cfa89afc5630 := by decide +kernel
theorem test_v1b15 : after (exec .v1b15 (v1State 5)) (·.result) = some 0xf3265d4cb7faa998 := by decide +kernel

/-- R173, R174 at `j = 31`: the last position goes to `TAIL1`. -/
theorem test_v1b0_last : after (exec .v1b0 (v1State 31)) (fun t => (t.result, t.stage, t.j)) = some (0xcbcbcbcbcbcbcbcb, .v1Tail, 0) := by
  decide +kernel
theorem test_v1b1_last : after (exec .v1b1 (v1State 31)) (·.result) = some 0xc5f6a390093a6f5c := by decide +kernel

/-- R172, R93: at `j = 5` the nibble of `0x0123456789abcdef` is `0x0123456789abcdef >> 10 & 15 = 3`. -/
theorem test_br1 : after (exec .br1 (v1State 5)) (fun t => (t.result, t.j)) = some (0x0e3d685bc2f1a497, 6) := by decide +kernel

/-- R189's example. -/
theorem test_tail1 :
    after (exec .tail1 (withWords { State.reset with result := 0x5124e80a4ea10154 } [(340, 0xeb97365b3d5d2723)]))
      (fun t => (t.addrB, t.bufA.get 0, t.bufB.get 0, t.addrA, t.pad64 7490, t.i)) =
    some (340, 0x5124e80a4ea10154, 0xeb97365b3d5d2723, 7490, 0x5124e80a4ea10154, 1) := by decide +kernel

/-- R189, R190: the last iteration writes the first 8 bytes of the digest, big-endian. -/
theorem test_tail1_digest :
    after (exec .tail1 { State.reset with result := 0x0ebbbd8a31edadfe, i := 4999 })
      (fun t => (hexOf (t.digest.toList.take 9), t.stage, t.i)) = some (0x0ebbbd8a31edadfe00, .done, 0) := by decide +kernel

/-! ### The v2 and v3 fill (44_chacha_fill.md) -/

/-- R200: the last byte inside v2's scratchpad and the first outside it. -/
theorem test_cfzero :
    after (exec .cfzero { State.reset with ver := 2, pad := [(0, 1), (439295, 2), (439296, 3)] }) (·.pad) =
      some [(439296, 3)] := by decide +kernel

/-- R201's example. -/
theorem test_cfseed :
    after (exec .cfseed { State.reset with ver := 2, len := 112 })
      (fun t => (hexOf t.h.toList, hexOf t.nonce.toList, t.numChunks, t.stage)) =
    some (0x09da4dc6a3e1b9e7714e6d8c1b1fa803e1a25c86215539ebfa3fad46d2e06cd4, 0x09da4dc6a3e1b9e7714e6d8c, 4, .cfChunk) := by
  decide +kernel

/-- The first line of R209 (`H`, and the first bytes written) in a chunk cut to its last 12 bytes by `OUTOFF`. -/
theorem test_cfchunk :
    after (exec .cfchunk { State.reset with
        ver := 2, stage := .cfChunk, len := 112, numChunks := 1, outOff := 439284
        h := bytesToVector 32 (hexBytes 32 0x09da4dc6a3e1b9e7714e6d8c1b1fa803e1a25c86215539ebfa3fad46d2e06cd4)
        nonce := bytesToVector 12 (hexBytes 12 0x09da4dc6a3e1b9e7714e6d8c) })
      (fun t => (hexOf t.h.toList, t.pad64 0, hexOf t.nonce.toList, t.outOff, t.stage)) =
    some (0x41a1ba57a507230105eb97d4c0acfb334e556a11ed3c4c42b3eeb04565e0ec19, 0xb89030bca29a15a5,
      0xa5159aa2bc3090b8fbc4e62d, 439296, .mxSetup) := by decide +kernel

/-- R204's example: v2, 5 chunks, the last one. -/
theorem test_cfchunk_range :
    after (exec .cfchunk { State.reset with ver := 2, stage := .cfChunk, len := 160, numChunks := 5, i := 4, outOff := 351436 })
      (fun t => (t.err, t.stage, t.i, t.outOff, t.pad.length)) = some (.fillRange, .fault, 0, 351436, 0) := by decide +kernel

/-! ### The v2 mix (45_v2_mix.md) -/

/-- R220's examples. -/
theorem test_mxsetup :
    after (exec .mxsetup (withWords { State.reset with ver := 2, r := 5 } [(54911, 0x1f3a5c765536e75e), (27455, 0xfd11391d39decece)]))
      (fun t => (t.addrA, t.addrB, t.r, t.stage)) = some (0x1f3a5c765536e75e, 0xfd11391d, 0, .v2Head) := by decide +kernel
theorem test_mxsetup_v3 :
    after (exec .mxsetup (withWords { State.reset with ver := 3 } [(67967, 0x0784bb65068ccc41), (33983, 0xeba171a0a26398d7)]))
      (fun t => (t.addrA, t.addrB, t.stage)) = some (0x0784bb65068ccc41, 0xeba171a0, .v3Head) := by decide +kernel

/-- R221's example. -/
theorem test_head2 :
    after (exec .head2 (withWords { State.reset with ver := 2, addrA := 0x1f3a5c765536e75e, addrB := 0xfd11391d }
        [(5278, 0xe2695fc5b0b46323), (27456 + 23453, 0x68d395b8ab649d50)]))
      (fun t => (t.result, t.stage)) = some (0x74fcaea4f4887739, .v2Step) := by decide +kernel

/-- The first step of R241. -/
theorem test_step2 :
    after (exec .step2 (withWords { State.reset with ver := 2, stage := .v2Step, result := 0x74fcaea4f4887739 }
        [(0, 0xb89030bca29a15a5), (20921, 0xed9d217713e3b7df), (27455, 0xfd11391d39decece), (27456, 0xc3440bcdaf05f471),
          (27456 + 27142, 0x69b6c2f5b245fb54)]))
      (fun t => (t.result, t.r, t.pad64 27455, t.pad64 27456, t.j)) =
    some (0x590d81b00f2edec4, 1, 0xa41cb8ad36f0100a, 0x6905c0477c6af571, 1) := by decide +kernel

/-- The operands of the examples of R223 to R238 in a step: `R = 6` before its advance, `a` and `b` at the words that
`RESULT` and `R` give (R222), `i = 2`, `j = 5`. -/
def v2State : State :=
  withWords { State.reset with ver := 2, stage := .v2Step, i := 2, j := 5, r := 6, result := 0x0123456789abcdef }
    [(6, 0x1122334455667788), (0x0123456789abcdef % 27456, 0xfedcba9876543210),
      (27456 + 0x43fb72ea61d950c8 % 27456, 0x0f1e2d3c4b5a6978)]

theorem test_v2b0 : after (exec .v2b0 v2State) (·.result) = some 0x0de0f21cb65f09a7 := by decide +kernel
theorem test_v2b1 : after (exec .v2b1 v2State) (·.result) = some 0x3bf76ee65dd54cc4 := by decide +kernel
theorem test_v2b2 : after (exec .v2b2 v2State) (·.result) = some 0xc387c30fc387c21f := by decide +kernel
theorem test_v2b3 : after (exec .v2b3 v2State) (·.result) = some 0xf967b2054d2a2b5f := by decide +kernel
theorem test_v2b4 : after (exec .v2b4 v2State) (·.result) = some 0x721cf9fd1d2865df := by decide +kernel
theorem test_v2b5 : after (exec .v2b5 v2State) (·.result) = some 0x4081c11f478ec63e := by decide +kernel
theorem test_v2b6 : after (exec .v2b6 v2State) (·.result) = some 0x03870b8e13971b9e := by decide +kernel
theorem test_v2b7 : after (exec .v2b7 v2State) (·.result) = some 0x319d0bebd531987e := by decide +kernel
theorem test_v2b8 : after (exec .v2b8 v2State) (·.result) = some 0xe17d0d800823782f := by decide +kernel
theorem test_v2b9 : after (exec .v2b9 v2State) (·.result) = some 0x7916674ee85763df := by decide +kernel
theorem test_v2b10 : after (exec .v2b10 v2State) (·.result) = some 0x013db825b10d89d0 := by decide +kernel
theorem test_v2b11 : after (exec .v2b11 v2State) (·.result) = some 0x2002ec47b99b74ce := by decide +kernel
theorem test_v2b12 : after (exec .v2b12 v2State) (·.result) = some 0x4602ce8b5713d812 := by decide +kernel
theorem test_v2b13 : after (exec .v2b13 v2State) (·.result) = some 0xe1c3a587694b2d0f := by decide +kernel
theorem test_v2b14 : after (exec .v2b14 v2State) (·.result) = some 0x5a79ffbeb8cd2daa := by decide +kernel
theorem test_v2b15 : after (exec .v2b15 v2State) (·.result) = some 0x2f9f5ec47dbaee27 := by decide +kernel

/-- R239: the corner operands of the whole v2 table. -/
theorem test_v2_corner_zero : v2Table.toList.map (fun f => f ⟨0, 0, 0, 0, 1, 0, 0⟩) = List.replicate 16 0 := by decide +kernel
theorem test_v2_corner_ones :
    let m : Word := 0xffffffffffffffff
    v2Table.toList.map (fun f => f ⟨m, m, m, m, 64, 2, 27455⟩) =
      [m, m, 0, m - 2, m, 0, 0, m, m, 0, m, m, m - 1, m, 0, m] := by decide +kernel

/-- The second example of R234, and the taken and equal arms of R236. -/
theorem test_v2b11_wide : v2b11 ⟨1, 0, 7, 9, 0, 0, 0⟩ = 0xfffffffffffffffc := by decide +kernel
theorem test_v2b13_arms :
    v2b13 ⟨0xffffffffffffffff, 3, 5, 0, 0, 0, 0⟩ = 0xaaaaaaaaaaaaaaab ∧ v2b13 ⟨3, 3, 8, 8, 0, 0, 0⟩ = 8 := by decide +kernel

/-- R240's examples. -/
theorem test_tail2 :
    after (exec .tail2 { State.reset with ver := 2, stage := .v2Tail, result := 0x14553afe23f576b0 })
      (fun t => (t.addrA, t.addrB, t.stage, t.i)) = some (0x14553afe23f576b0, 0x4825b456, .v2Head, 1) := by decide +kernel
theorem test_tail2_last :
    after (exec .tail2 { State.reset with ver := 2, stage := .v2Tail, i := 2, result := 0xab4fcb305bfb5c10 })
      (fun t => (t.addrB, t.stage, t.i)) = some (0xd16af19d, .fin, 0) := by decide +kernel

/-! ### The v3 mix (46_v3_mix.md) -/

/-- R250's example. -/
theorem test_head3 :
    after (exec .head3 (withWords { State.reset with ver := 3, addrA := 0x0784bb65068ccc41, addrB := 0xeba171a0 }
        [(25470, 0x09bd0697ce2a1d14), (33984 + 32514, 0x1e202c14f66a643e)]))
      (fun t => (t.result, t.stage)) = some (0x8abc98293ef582c9, .v3Step) := by decide +kernel

/-- The first step of R271. -/
theorem test_step3 :
    after (exec .step3 (withWords { State.reset with ver := 3, stage := .v3Step, result := 0x8abc98293ef582c9 }
        [(0, 0xb89030bca29a15a5), (2141, 0x7718a8bbafc41412), (33984 + 11900, 0x89fd48894713db5b),
          (26613, 0x13f7b16ef2c38976), (8962, 0x4f5682d57b23d0a2), (33984 + 8285, 0x342e0cfcc97fdf92)]))
      (fun t => (t.result, t.r, t.pad64 8962, t.pad64 (33984 + 8285), t.j)) =
    some (0xd8fb7b132b72dce1, 1, 0xcb0cca7dd9b15597, 0xb07444546bed5aa7, 1) := by decide +kernel

/-- The last step of the run of R271: the high half is chosen, the cursor wraps. -/
theorem test_step3_last :
    after (exec .step3 (withWords { State.reset with ver := 3, stage := .v3Step, i := 1, j := 33983, r := 67967, result := 0xaf0aec9239eb1288 }
        [(20129, 0x487e02e19e142a4d), (33984 + 2981, 0x80301538efa4d7c5), (67967, 0x5d580db4c561deff),
          (33984 + 13663, 0x576b7e01973c4754), (13083, 0xd8fd094ecac43024), (33984 + 151, 0xfcdf452c61d30663)]))
      (fun t => (t.result, t.r, t.pad64 13083, t.pad64 (33984 + 151), t.stage)) =
    some (0x4fea2ae96f865d06, 0, 0x188154e8f8ba1a52, 0x3ca3188a53ad2c15, .v3Tail) := by decide +kernel

/-- The operands of the examples of R252 to R267 in a step: `R = 6` before its advance, `a` and `b` at the words that R251
gives, `i = 1`, `j = 5`. -/
def v3State : State :=
  withWords { State.reset with ver := 3, stage := .v3Step, i := 1, j := 5, r := 6, result := 0x0123456789abcdef }
    [(6, 0x1122334455667788), (mapIndex 0x0123456789abcdef, 0xfedcba9876543210),
      (33984 + mapIndex (0xfedcba9876543210 ^^^ 0x43fb72ea61d950c8), 0x0f1e2d3c4b5a6978)]

theorem test_v3b0 : after (exec .v3b0 v3State) (·.result) = some 0x7477aab8f8c637f6 := by decide +kernel
theorem test_v3b1 : after (exec .v3b1 v3State) (·.result) = some 0x8a3d4ff6ef4e57cd := by decide +kernel
theorem test_v3b2 : after (exec .v3b2 v3State) (·.result) = some 0x14d422b2f5a7b7a6 := by decide +kernel
theorem test_v3b3 : after (exec .v3b3 v3State) (·.result) = some 0x59ec81534a8ad7fe := by decide +kernel
theorem test_v3b4 : after (exec .v3b4 v3State) (·.result) = some 0x873e7f474a1977dc := by decide +kernel
theorem test_v3b5 : after (exec .v3b5 v3State) (·.result) = some 0x207047d1e3b18f90 := by decide +kernel
theorem test_v3b6 : after (exec .v3b6 v3State) (·.result) = some 0xe1c2e384e5c6e780 := by decide +kernel
theorem test_v3b7 : after (exec .v3b7 v3State) (·.result) = some 0x6742faf54c661f8c := by decide +kernel
theorem test_v3b8 : after (exec .v3b8 v3State) (·.result) = some 0x5f43600208de0bf8 := by decide +kernel
theorem test_v3b9 : after (exec .v3b9 v3State) (·.result) = some 0x4599d3ba15d8f7de := by decide +kernel
theorem test_v3b10 : after (exec .v3b10 v3State) (·.result) = some 0x4f6e096c43627400 := by decide +kernel
theorem test_v3b11 : after (exec .v3b11 v3State) (·.result) = some 0x00bb11ee66dd3388 := by decide +kernel
theorem test_v3b12 : after (exec .v3b12 v3State) (·.result) = some 0x80b3a2d5c4f60491 := by decide +kernel
theorem test_v3b13 : after (exec .v3b13 v3State) (·.result) = some 0x70e961da52cb43f8 := by decide +kernel
theorem test_v3b14 : after (exec .v3b14 v3State) (·.result) = some 0x9e7fefae334b6a96 := by decide +kernel
theorem test_v3b15 : after (exec .v3b15 v3State) (·.result) = some 0xe7d7b11f6ebb89cb := by decide +kernel

/-- R268: the corner operands of the whole v3 table. -/
theorem test_v3_corner_zero : v3Table.toList.map (fun f => f ⟨0, 0, 0, 0, 1, 0, 0⟩) = List.replicate 16 0 := by decide +kernel
theorem test_v3_corner_ones :
    let m : Word := 0xffffffffffffffff
    v3Table.toList.map (fun f => f ⟨m, m, m, m, 64, 1, 33983⟩) =
      [0xb8, 0, 0x84bf, 2, 0, m, m, 0, 0, m, 0, 0, 1, 0, m, 0] := by decide +kernel

/-- The other examples of R263 and R265. -/
theorem test_v3b11_arms : v3b11 ⟨1, 0, 7, 9, 0, 0, 0⟩ = 0xfffffffffffffffd ∧ v3b11 ⟨7, 2, 7, 2, 0, 0, 0⟩ = 0 := by decide +kernel
theorem test_v3b13_arms :
    v3b13 ⟨0xffffffffffffffff, 3, 5, 0, 0, 0, 0⟩ = 0x5555555555555554 ∧ v3b13 ⟨3, 3, 8, 8, 0, 0, 0⟩ = 0xb := by decide +kernel

/-- R270's examples. -/
theorem test_tail3 :
    after (exec .tail3 { State.reset with
        ver := 3, stage := .v3Tail, r := 33984, result := 0x6d4ec99fd653edfb, addrA := 0x0784bb65068ccc41, addrB := 0xeba171a0 })
      (fun t => (t.addrA, t.addrB, t.stage, t.i)) = some (0x47918482403714f2, 0xc503917946ec5610, .v3Head, 1) := by decide +kernel
theorem test_tail3_last :
    after (exec .tail3 { State.reset with
        ver := 3, stage := .v3Tail, i := 1, result := 0x4fea2ae96f865d06, addrA := 0x47918482403714f2, addrB := 0xc503917946ec5610 })
      (fun t => (t.addrA, t.addrB, t.stage)) = some (0x2a9a21ec5d7b6990, 0x3a592f48b87660bf, .fin) := by decide +kernel

/-! ### The host (47_finalize_host.md; 10_state.md R21) -/

/-- R297's examples and the bounds of its checks: version, `PADDED`, `LEN`; then `ERR` and `STAGE`. -/
theorem test_start :
    ([(0, false, 0), (1, false, 200), (1, false, 199), (1, true, 120), (1, true, 121), (2, false, 0), (2, false, 4096), (3, true, 4097),
      (3, true, 1)] : List (BitVec 2 × Bool × Half)).map
      (fun p => after (exec .start { State.reset with ver := p.1, padded := p.2.1, len := p.2.2 }) (fun t => (t.err, t.stage))) =
    [some (.illegalVer, .fault), some (.none, .v1Absorb), some (.invalidInputLength, .fault), some (.none, .v1Absorb),
      some (.invalidInputLength, .fault), some (.none, .cfZero), some (.none, .cfZero), some (.invalidInputLength, .fault),
      some (.none, .cfZero)] := by decide +kernel

/-- The parameters of 00_scope.md R7 at other values than their defaults: `IN_CAP = 200` (R297), `MODPOW_MOD1_EXP0 = 0` and
`modpow` with modulus 1 (40_arith.md R131 (b)). -/
theorem test_params :
    let p : EngineParams := ⟨200, .zero, 0⟩
    ([200, 201] : List Half).map (fun n =>
      after (exec .start { State.reset with params := p, ver := 2, len := n }) (fun t => (t.err, t.stage))) =
      [some (.none, .cfZero), some (.invalidInputLength, .fault)] ∧
    modpow p 5 0 1 = 0 ∧ modpow .defaults 5 0 1 = 1 ∧ modpow p 5 1 1 = 0 ∧ modpow p 5 3 0 = 0 := by decide +kernel

/-- Another policy for modulus 0 (R131 (a)) is a value that nothing is known of. -/
theorem test_modpow_other : modpow ⟨200, .other, 1⟩ 5 3 0 = Config.modpowZeroOther 5 3 := rfl

/-- R336: `START` while `BUSY` has no effect. -/
theorem test_start_busy :
    after (exec .start { State.reset with ver := 2, stage := .v2Step, j := 7 }) (fun t => (t.stage, t.j)) = some (.v2Step, 7) := by decide +kernel

/-- R298: bits 31:3 are ignored, and read back as zeros. -/
theorem test_wrmode :
    let s := { State.reset with inputs := [.access (.write32 0x04 0xfffffffb), .access (.read32 0x04)] }
    after (Host.Core.run Sys2Proof.core 2 s) (fun t => (t.ver, t.padded, t.hostData)) = some (3, false, 3) := by decide +kernel

/-- R302, R21: `IN` reads back, a byte and a word, little-endian; `CTRL` reads 0. -/
theorem test_window_read :
    let s := { State.reset with input := [(0, 0xcd), (4095, 0xab)] }
    (([.read8 0x1fff, .read32 0x1ffc, .read32 0x1000, .read32 0x00] : List HostAccess).map fun a =>
      after (step { s with inputs := [.access a] }) (·.hostData)) =
      [some 0xab, some 0xab000000, some 0xcd, some 0] := by decide +kernel

theorem test_wrlen : after (exec (.wrlen 0xffffffff) State.reset) (·.len) = some 0xffffffff := by decide +kernel
theorem test_wrlen_busy : after (exec (.wrlen 7) { State.reset with stage := .fin }) (·.len) = some 0 := by decide +kernel

/-- R302: a word is packed little-endian; a byte at `IN_CAP` is outside the window. -/
theorem test_wrin_word : after (exec (.wrin (.word 1 0x44332211)) State.reset) (·.input) =
    some [(4, 0x11), (5, 0x22), (6, 0x33), (7, 0x44)] := by decide +kernel
theorem test_wrin_outside : after (exec (.wrin (.byte 4096 1)) State.reset) (·.input) = some [] := by decide +kernel

/-- R299: `BUSY`, `FAULT` with `ILLEGAL_VER`. -/
theorem test_rdstatus :
    after (exec .rdstatus { State.reset with stage := .v1Br }) (·.hostData) = some 1 ∧
      after (exec .rdstatus { State.reset with stage := .fault, err := .illegalVer }) (·.hostData) = some 0x43 := by decide +kernel

/-- R300, with the first bytes of vector 3. -/
theorem test_rddigest :
    let s := { State.reset with stage := .done, digest := bytesToVector 32 (hexBytes 8 0x7edb70f074857390) }
    after (exec (.rddigest (.byte 0)) s) (·.hostData) = some 0x7e ∧ after (exec (.rddigest (.word 1)) s) (·.hostData) = some 0x90738574 := by
  decide +kernel

/-- R337: outside `DONE` the value is a free one, and the digest stays. -/
theorem test_rddigest_idle : after (exec (.rddigest (.byte 0)) State.reset) (·.freeCtr) = some 1 := by decide +kernel

/-- R303, R304: the last word of v1's scratchpad and the one beyond. -/
theorem test_padrd :
    after (exec (.padrd 32767) (withWords { State.reset with ver := 1 } [(32767, 0xaada1ab429cf6ffc)])) (·.hostData) =
      some 0xaada1ab429cf6ffc ∧
    after (exec (.padrd 32768) { State.reset with ver := 1 }) (·.hostData) = none := by decide +kernel
theorem test_padwr :
    after (exec (.padwr 1 0xff00000000000012) { State.reset with ver := 1 }) (·.pad) = some [(8, 0x12), (15, 0xff)] := by decide +kernel

/-- R290: `FIN` hashes exactly the version's bytes, which a version without the operation does not have (log 17). The digests
of whole runs are in NOTES.md: the kernel does not reach them. -/
theorem test_fin_version : after (exec .fin { State.reset with ver := 1 }) (·.stage) = none := by decide +kernel

/-- R294 with R297's checks: the hash calls that `START` turns away, on an engine that was never reset. The calls that return a
digest are beyond the kernel (NOTES.md). -/
theorem test_hash :
    let s := { State.reset with stage := .done, hostData := 7, slots := Vector.replicate 256 1 }
    [hash 0 false [] s, hashV1Padded (List.replicate 121 1) s, hash 1 false [1] s,
      hashV2 (List.replicate 201 1) { s with params := ⟨200, .zero, 1⟩ }].map returned =
      [some (.error 4), some (.error 1), some (.error 1), some (.error 1)] := by decide +kernel

/-! ### Witnesses: for each statement with hypotheses, values that meet them, at the ends of their ranges -/

/-- A resting engine. -/
abbrev rest (ver : BitVec 2) (padded : Bool) (len : Half) : State :=
  { State.reset with ver := ver, padded := padded, len := len }

theorem witness_inv_rest (ver : BitVec 2) (padded : Bool) (len : Half) : RunInv (rest ver padded len) where
  params := (by decide : 200 ≤ 4096)
  seq := ⟨rfl, rfl⟩
  cursor := trivial
  len := fun h => nomatch h
  fill := fun h => nomatch h
  errFault := ⟨fun h => absurd rfl h, fun h => nomatch h⟩
  errRaised := ⟨nofun, nofun⟩
  padWf := Memory.wf_nil
  padRange := fun _ h => nomatch h
  inputWf := Memory.wf_nil
  inputRange := fun _ h => nomatch h

/-- A resting engine with a scribbled scratchpad, other registers and the `PADDED` that v2 and v3 do not read. -/
abbrev scribbled (ver : BitVec 2) (len : Half) : State :=
  { State.reset with ver := ver, padded := true, len := len, result := 7, pad := [(0, 1), (543743, 2)], digest := Vector.replicate 32 5 }

theorem witness_inv_scribbled (ver : BitVec 2) (len : Half) : RunInv (scribbled ver len) where
  params := (by decide : 200 ≤ 4096)
  seq := ⟨rfl, rfl⟩
  cursor := trivial
  len := fun h => nomatch h
  fill := fun h => nomatch h
  errFault := ⟨fun h => absurd rfl h, fun h => nomatch h⟩
  errRaised := ⟨nofun, nofun⟩
  padWf := (by decide +kernel : Memory.wf [(0, 1), (543743, 2)])
  padRange := (by decide +kernel : ∀ c ∈ ([(0, 1), (543743, 2)] : Memory), c.1 < 8 * maxPadWords)
  inputWf := Memory.wf_nil
  inputRange := fun _ h => nomatch h

/-- An engine at a position of a run, with memories that list nothing. -/
theorem witness_inv_of {s : State} (hparams : 200 ≤ s.params.inCap) (hseq : s.SeqOk) (hcur : s.CursorOk) (hlen : s.LenOk) (hfill : s.FillOk) (herr : s.err = .none)
    (hst : s.stage ≠ .fault) (hp : s.pad = []) (hi : s.input = []) : RunInv s where
  params := hparams
  seq := hseq
  cursor := hcur
  len := hlen
  fill := hfill
  errFault := ⟨fun h => absurd herr h, fun h => absurd h hst⟩
  errRaised := by rw [herr]; exact ⟨nofun, nofun⟩
  padWf := by rw [hp]; exact Memory.wf_nil
  padRange := by rw [hp]; exact fun _ h => nomatch h
  inputWf := by rw [hi]; exact Memory.wf_nil
  inputRange := by rw [hi]; exact fun _ h => nomatch h

/-- The last step of the v1 inner loop, of the v2 and of the v3 mix; a v2 engine about to clear its scratchpad; a v2 engine at the
last of 5 chunks, which does not fit, and at the only chunk of a short input, which does. -/
abbrev lastBr1 : State := { rest 1 false 200 with stage := .v1Br, i := 4999, j := 31 }
abbrev lastStep2 : State := { rest 2 false 112 with stage := .v2Step, i := 2, j := 27455, r := 27455 }
abbrev lastStep3 : State := { rest 3 false 112 with stage := .v3Step, i := 1, j := 33983, r := 67967 }
abbrev atZero : State := { rest 2 false 112 with stage := .cfZero }
abbrev lastOf5 : State := { rest 2 false 160 with stage := .cfChunk, numChunks := 5, i := 4, outOff := 351436 }
abbrev oneChunk : State := { rest 3 false 32 with stage := .cfChunk, numChunks := 1 }

theorem witness_inv_lastBr1 : RunInv lastBr1 :=
  witness_inv_of (by decide) ⟨rfl, by decide +kernel, by decide +kernel⟩ trivial (fun _ => ⟨by decide +kernel, fun _ => .inl ⟨rfl, rfl⟩⟩) (fun h => nomatch h) rfl
    (by decide +kernel) rfl rfl
theorem witness_inv_lastStep2 : RunInv lastStep2 :=
  witness_inv_of (by decide) ⟨rfl, by decide +kernel, by decide +kernel⟩ (by decide +kernel : (27455 : Nat) = (27456 * 2 + 27455) % 54912)
    (fun _ => ⟨by decide +kernel, fun h => absurd h (by decide +kernel)⟩) (fun h => nomatch h) rfl (by decide +kernel) rfl rfl
theorem witness_inv_lastStep3 : RunInv lastStep3 :=
  witness_inv_of (by decide) ⟨rfl, by decide +kernel, by decide +kernel⟩ (by decide +kernel : (67967 : Nat) = (33984 * 1 + 33983) % 67968)
    (fun _ => ⟨by decide +kernel, fun h => absurd h (by decide +kernel)⟩) (fun h => nomatch h) rfl (by decide +kernel) rfl rfl
theorem witness_inv_atZero : RunInv atZero :=
  witness_inv_of (by decide) ⟨.inl rfl, rfl, rfl⟩ trivial (fun _ => ⟨by decide +kernel, fun h => absurd h (by decide +kernel)⟩) (fun h => nomatch h) rfl
    (by decide +kernel) rfl rfl
theorem witness_inv_lastOf5 : RunInv lastOf5 :=
  witness_inv_of (by decide) ⟨.inl rfl, by decide +kernel, rfl⟩ trivial (fun _ => ⟨by decide +kernel, fun h => absurd h (by decide +kernel)⟩)
    (fun _ => ⟨by decide +kernel, by decide +kernel, by decide +kernel, by decide +kernel⟩) rfl (by decide +kernel) rfl rfl
theorem witness_inv_oneChunk : RunInv oneChunk :=
  witness_inv_of (by decide) ⟨.inr rfl, by decide +kernel, rfl⟩ trivial (fun _ => ⟨by decide +kernel, fun h => absurd h (by decide +kernel)⟩)
    (fun _ => ⟨by decide +kernel, by decide +kernel, by decide +kernel, by decide +kernel⟩) rfl (by decide +kernel) rfl rfl

/-- `DecodeWords`, `DecodeEncode`. -/
theorem witness_decode :
    (15 : BitVec 6).toNat < 16 ∧ (21 : BitVec 5).toNat = 21 ∧ (22 : BitVec 5).toNat = 22 ∧ 23 ≤ (23 : BitVec 5).toNat ∧
      23 ≤ (31 : BitVec 5).toNat ∧ (Instr.padwr 67967 1).wellFormed = true ∧
      (Instr.wrin (.byte 0xffffefff 1)).wellFormed = true ∧ (Instr.wrin (.word 0x3ffffbff 1)).wellFormed = true := by
  decide +kernel

/-- `StepRunsDecoded`, from a stage and from a host access; `ResetInput`. -/
theorem witness_step :
    atZero.nextSelector = some (.seq 0b01010) ∧ decode (.seq 0b01010) = .ok .cfzero ∧
      { atZero with inputs := [.access (.read32 0x0C)] }.nextSelector = some (.host (.read32 0x0C)) ∧
      decode (.host (.read32 0x0C)) = .ok .rdstatus ∧ { atZero with inputs := [.reset] }.inputs = .reset :: [] := by decide +kernel

/-- `StageRunsOperation`: a state at each stage. -/
theorem witness_stages :
    ∀ st ∈ stages, (State.reset.goto st 0 0).inputs = [] ∧ (State.reset.goto st 0 0).stage = st ∧ (State.reset.goto st 0 0).j = 0 := by
  decide +kernel

/-- `StepKeepsInv`, `StepsCountDown`, `RunsTerminate`: a busy engine with the invariant whose step goes on. -/
theorem witness_run :
    RunInv atZero ∧ atZero.busy = true ∧ atZero.inputs = [] ∧ (after (step atZero) (·.stage)) = some .cfSeed ∧
      RunInv lastBr1 ∧ lastBr1.busy = true ∧ (after (step lastBr1) (·.stage)) = some .v1Tail ∧
      RunInv oneChunk ∧ oneChunk.busy = true ∧ oneChunk.stepsLeft = 67975 ∧
      RunInv lastStep2 ∧ lastStep2.stepsLeft = 3 ∧ RunInv lastStep3 ∧ lastStep3.stepsLeft = 3 :=
  ⟨witness_inv_atZero, rfl, rfl, by decide +kernel, witness_inv_lastBr1, rfl, by decide +kernel, witness_inv_oneChunk, rfl, by decide +kernel,
    witness_inv_lastStep2, by decide +kernel, witness_inv_lastStep3, by decide +kernel⟩

/-- `StepsCountDown`: a busy engine with the invariant whose step raises a fault. -/
theorem witness_run_fault : RunInv lastOf5 ∧ lastOf5.busy = true ∧ (after (step lastOf5) (·.stage)) = some .fault :=
  ⟨witness_inv_lastOf5, rfl, by decide +kernel⟩

/-- `StepNeverStops`: with the invariant, the first word beyond v1's scratchpad stops the step, the last word inside does not. -/
theorem witness_stop :
    RunInv { rest 1 false 0 with inputs := [.access (.padRead 32768)] } ∧
      step { rest 1 false 0 with inputs := [.access (.padRead 32768)] } = .fault .padRange ∧
      (after (step { rest 1 false 0 with inputs := [.access (.padRead 32767)] }) (·.hostData)) = some 0 :=
  ⟨witness_inv_of (by decide) ⟨rfl, rfl⟩ trivial (fun h => nomatch h) (fun h => nomatch h) rfl (by decide +kernel) rfl rfl, rfl, by decide +kernel⟩

/-- `StartStepCount`, `V1RunCompletes`, `FillOutcome`: accepted runs of each version; no chunk, 1 chunk, 4 chunks and 128 chunks
(`LEN = 4096`), whose number divides `MEM_BYTES`; 5 chunks, whose number does not. -/
theorem witness_start :
    (∀ (ver : BitVec 2) (padded : Bool) (len : Half), RunInv (rest ver padded len) ∧ (rest ver padded len).busy = false) ∧
      after (exec .start (rest 1 false 200)) (·.stage) = some .v1Absorb ∧
      after (exec .start (rest 1 true 120)) (·.stage) = some .v1Absorb ∧
      ([0, 1, 112, 129, 4096] : List Half).map (fun n => after (exec .start (rest 2 false n)) (·.stage)) =
        List.replicate 5 (some .cfZero) ∧
      ([0, 1, 112, 129, 4096] : List Half).map (fun n => after (exec .start (rest 3 false n)) (·.stage)) =
        List.replicate 5 (some .cfZero) ∧
      [1, 4, 128].map (memBytes 2 % ·) = [0, 0, 0] ∧ memBytes 2 % 5 ≠ 0 ∧
      [1, 4, 128].map (memBytes 3 % ·) = [0, 0, 0] ∧ memBytes 3 % 5 ≠ 0 :=
  ⟨fun _ _ _ => ⟨witness_inv_rest .., rfl⟩, by decide +kernel⟩

/-- An engine with an input buffer of 2 MiB, whose longest inputs have less than 12 bytes a chunk. -/
abbrev bigIn (ver : BitVec 2) (len : Half) : State := { rest ver false len with params := ⟨2097152, .other, 0⟩ }

theorem witness_inv_bigIn (ver : BitVec 2) (len : Half) : RunInv (bigIn ver len) :=
  witness_inv_of (by decide : 200 ≤ 2097152) ⟨rfl, rfl⟩ trivial (fun h => nomatch h) (fun h => nomatch h) rfl nofun rfl rfl

/-- `FillOutcome`: an accepted run of each version with chunks of 11 bytes; the longest one with chunks of 12. -/
theorem witness_start_big :
    RunInv (bigIn 2 1171457) ∧ RunInv (bigIn 3 1449985) ∧ (bigIn 2 0).busy = false ∧ (bigIn 3 0).busy = false ∧
      after (exec .start (bigIn 2 1171457)) (·.stage) = some .cfZero ∧
      after (exec .start (bigIn 3 1449985)) (·.stage) = some .cfZero ∧
      memBytes 2 / ((1171457 + 31) / 32) = 11 ∧ memBytes 2 / ((1171456 + 31) / 32) = 12 ∧ (1171456 + 31) / 32 ∣ memBytes 2 ∧
      memBytes 3 / ((1449985 + 31) / 32) = 11 ∧ memBytes 3 / ((1449984 + 31) / 32) = 12 ∧ (1449984 + 31) / 32 ∣ memBytes 3 :=
  ⟨witness_inv_bigIn .., witness_inv_bigIn .., rfl, rfl, by decide +kernel⟩

/-- `HashFunction`: two engines with the same parameters, resting, and an input at each bound of each clause; an engine that has
the input already, as the last clause asks. -/
theorem witness_hash :
    (∀ (ver : BitVec 2) (len : Half), RunInv (rest ver false len) ∧ RunInv (scribbled ver len) ∧ (rest ver false len).busy = false ∧
      (scribbled ver len).busy = false ∧ (rest ver false len).params = (scribbled ver len).params) ∧
      (List.replicate 4097 (0 : Byte)).length < 2 ^ 32 ∧ (rest 1 false 0).params.inCap < (List.replicate 4097 (0 : Byte)).length ∧
      (List.replicate 200 (0 : Byte)).length = 200 ∧ (List.replicate 120 (0 : Byte)).length = 120 ∧
      ((rest 1 false 200).inputs = [] ∧ (rest 1 false 200).len.toNat = (List.replicate 200 (0 : Byte)).length ∧
        (∀ k, k < 200 → (rest 1 false 200).input.read k = (List.replicate 200 (0 : Byte)).getD k 0) ∧
        after (exec .start (rest 1 false 200)) (·.stage) = some .v1Absorb) :=
  ⟨fun _ _ => ⟨witness_inv_rest .., witness_inv_scribbled .., rfl, rfl, rfl⟩, by decide +kernel⟩

/-- `LiveStep`: two engines at one position that agree on what is live there and differ in other registers. -/
theorem witness_live :
    RunInv atZero ∧ RunInv { atZero with result := 9, totalSum := 4 } ∧ atZero.busy = true ∧ atZero.inputs = [] ∧
      Live atZero { atZero with result := 9, totalSum := 4 } ∧ (after (step atZero) (·.stage)) = some .cfSeed :=
  ⟨witness_inv_atZero,
    witness_inv_of (by decide) ⟨.inl rfl, rfl, rfl⟩ trivial (fun _ => ⟨by decide +kernel, fun h => absurd h (by decide +kernel)⟩) (fun h => nomatch h) rfl
      (by decide +kernel) rfl rfl,
    rfl, rfl, ⟨rfl, rfl, rfl, rfl, rfl, rfl, rfl, fun _ _ => rfl⟩, by decide +kernel⟩

/-- `Purity`: a fresh engine and a scribbled one with the same input. -/
theorem witness_purity :
    RunInv (rest 2 false 112) ∧ RunInv (scribbled 2 112) ∧ (rest 2 false 112).busy = false ∧ (scribbled 2 112).busy = false ∧
      (rest 2 false 112).params = (scribbled 2 112).params ∧ (rest 2 false 112).ver = (scribbled 2 112).ver ∧ InputAgree (rest 2 false 112) (scribbled 2 112) ∧
      (after (exec .start (rest 2 false 112)) (·.stage)) = some .cfZero ∧
      (after (exec .start (scribbled 2 112)) (·.stage)) = some .cfZero :=
  ⟨witness_inv_rest .., witness_inv_scribbled .., rfl, rfl, rfl, rfl, ⟨rfl, fun _ _ => rfl⟩, by decide +kernel, by decide +kernel⟩

/-- `PadViews`, `PadWrites`, `ModpowPower`, `Absorb`. -/
theorem witness_ranges : 7 < 8 ∧ 2 ≤ (2 : Word).toNat ∧ (rest 1 false 200).len.toNat ≤ 200 := by decide +kernel

/-- `Kfill`, `FillSelects`: the last full row and the last row, at their last words. -/
theorem witness_fill :
    ({ rest 1 false 200 with i := 1309, j := 24 }.iNat < 1310 ∧ { rest 1 false 200 with i := 1309, j := 24 }.jNat < 25) ∧
      ({ rest 1 false 200 with i := 1310, j := 17 }.iNat = 1310 ∧ { rest 1 false 200 with i := 1310, j := 17 }.jNat < 18) := by decide +kernel

/-- `PermSignedSum`, `PermVisitsOnce`: an inner chunk and the last one. -/
theorem witness_perm :
    { rest 1 false 200 with j := 254 }.jNat < 255 ∧ { rest 1 false 200 with j := 255 }.jNat = 255 ∧
      { rest 1 false 200 with j := 255 }.i = 0 := by decide +kernel

/-- `Br1Selects`, `V1TableLow`, `V1TableHigh`: an inner position and the last one, with the nibble of `RESULT` there. -/
theorem witness_br1 :
    (v1State 30).jNat < 31 ∧ lastBr1.jNat = 31 ∧
      (0 : BitVec 4).toNat = lastBr1.result.toNat / 2 ^ (2 * lastBr1.jNat) % 16 ∧
      (3 : BitVec 4).toNat = (v1State 5).result.toNat / 2 ^ (2 * (v1State 5).jNat) % 16 := by decide +kernel

/-- `Tail1`: the last iteration and the one before. -/
theorem witness_tail1 : { lastBr1 with i := 4998 }.iNat < 4999 ∧ lastBr1.iNat = 4999 := by decide +kernel

/-- `Cfzero`, `FinDigest`, `Mxsetup`: both versions. -/
theorem witness_version : (rest 2 false 0).ver = 2 ∧ (rest 3 false 0).ver = 3 := by decide +kernel

/-- `CfchunkCompletes`: a chunk that is not the last, the last one, ending at the end of the scratchpad, and a chunk of exactly 12
bytes (36608 chunks in v2). -/
theorem witness_cfchunk :
    (let s := { rest 2 false 64 with numChunks := 2 }
     let cur := (memBytes s.ver - s.outOff.toNat) / (s.numChunks.toNat - s.iNat)
     s.iNat + 1 < s.numChunks.toNat ∧ s.outOff.toNat ≤ memBytes s.ver ∧ s.iNat * cur + cur ≤ memBytes s.ver ∧ 12 ≤ cur) ∧
    (let s := oneChunk
     let cur := (memBytes s.ver - s.outOff.toNat) / (s.numChunks.toNat - s.iNat)
     s.iNat + 1 = s.numChunks.toNat ∧ s.iNat * cur + cur = memBytes s.ver ∧ 12 ≤ cur) ∧
    (let s := { rest 2 false 0 with numChunks := 36608 }
     let cur := (memBytes s.ver - s.outOff.toNat) / (s.numChunks.toNat - s.iNat)
     s.iNat < s.numChunks.toNat ∧ s.iNat * cur + cur ≤ memBytes s.ver ∧ cur = 12) := by decide +kernel

/-- `CfchunkFaults`: a range beyond the scratchpad; a range of 11 bytes inside it (36609 chunks in v2). -/
theorem witness_cfchunk_faults :
    (let s := lastOf5
     let cur := (memBytes s.ver - s.outOff.toNat) / (s.numChunks.toNat - s.iNat)
     s.iNat < s.numChunks.toNat ∧ s.outOff.toNat ≤ memBytes s.ver ∧ memBytes s.ver < s.iNat * cur + cur) ∧
    (let s := { rest 2 false 0 with numChunks := 36609 }
     let cur := (memBytes s.ver - s.outOff.toNat) / (s.numChunks.toNat - s.iNat)
     s.iNat < s.numChunks.toNat ∧ s.iNat * cur + cur ≤ memBytes s.ver ∧ cur = 11) := by decide +kernel

/-- `Step2Selects`, `V2TableLow`, `V2TableHigh`: the last position, the last cursor, with the nibble there. -/
theorem witness_step2 :
    lastStep2.jNat = 27455 ∧ lastStep2.r.toNat < 54912 ∧ { lastStep2 with j := 27454, r := 54911 }.jNat < 27455 ∧
      { lastStep2 with j := 27454, r := 54911 }.r.toNat = 54911 ∧
      (0 : BitVec 4).toNat = natRotl lastStep2.result.toNat (lastStep2.pad64 lastStep2.r.toNat).toNat % 16 := by decide +kernel

/-- `Tail2`, `Tail3`: the last outer iteration and the one before. -/
theorem witness_tails :
    lastStep2.iNat = 2 ∧ { lastStep2 with i := 1 }.iNat < 2 ∧ lastStep3.iNat = 1 ∧ { lastStep3 with i := 0 }.iNat < 1 := by decide +kernel

/-- `Step3Selects`, `V3TableLow`, `V3TableHigh`: the last position and cursor, with the nibble there. -/
theorem witness_step3 :
    lastStep3.jNat = 33983 ∧ lastStep3.r.toNat = 67967 ∧ { lastStep3 with j := 33982 }.jNat < 33983 ∧
      (0 : BitVec 4).toNat = natRotl lastStep3.result.toNat (lastStep3.pad64 lastStep3.r.toNat).toNat % 16 := by decide +kernel

/-- `Start`, `WriteModeLen`, `WriteIn`, `PadPort`: not busy; the bounds of each clause. -/
theorem witness_host :
    (rest 1 false 0).busy = false ∧ (4095 : BitVec 32).toNat < (rest 1 false 0).params.inCap ∧
      (rest 1 false 0).params.inCap ≤ (4096 : BitVec 32).toNat ∧ 4 * (1023 : BitVec 30).toNat + 3 < (rest 1 false 0).params.inCap ∧
      (rest 1 false 0).params.inCap ≤ 4 * (1024 : BitVec 30).toNat ∧ (32767 : BitVec 32).toNat < memWords (rest 1 false 0).ver := by
  decide +kernel

/-- An access as the next move of the host. -/
abbrev accessing (s : State) (a : HostAccess) : State := { s with inputs := [.access a] }

/-- `WriteModeLen`, `WriteIn`: the reads back, `IN`'s first and last byte and word. -/
theorem witness_read_back :
    (∀ off : BitVec 32, (accessing (rest 1 false 0) (.read32 off)).busy = false) ∧ (0 : BitVec 32).toNat = 0 ∧ (4 : BitVec 32).toNat = 4 ∧
      (8 : BitVec 32).toNat = 8 ∧ 0x1000 ≤ (0x1000 : BitVec 32).toNat ∧
      (0x1fff : BitVec 32).toNat < 0x1000 + (rest 1 false 0).params.inCap ∧
      (0x1ffc : BitVec 32).toNat + 4 ≤ 0x1000 + (rest 1 false 0).params.inCap ∧ (0x1ffc : BitVec 32).toNat % 4 = 0 :=
  ⟨fun _ => rfl, by decide +kernel⟩

/-- `BusyRefusesWrites`, `RefusedReads`, `ReadDigest`: the states of the clauses. -/
theorem witness_busy :
    atZero.busy = true ∧ (∀ a, (accessing atZero a).busy = true) ∧ (rest 1 false 0).stage ≠ .done ∧
      { rest 1 false 0 with stage := .done }.stage = .done := ⟨rfl, fun _ => rfl, by decide, rfl⟩

/-- `BusyRefusesWrites`: a 0 written to `CTRL.START`; the offsets without a register, from 9 to 0x0fff; one that is no multiple of
4; a byte below `IN`. -/
theorem witness_no_effect :
    ((0 : BitVec 32).toNat = 0 ∧ (0xfffffffe : Half).toNat % 2 = 0) ∧ (8 < (9 : BitVec 32).toNat ∧ (0x0fff : BitVec 32).toNat < 0x1000) ∧
      (0x1002 : BitVec 32).toNat % 4 ≠ 0 ∧
      (after (step (accessing (rest 1 false 0) (.write32 0 0xfffffffe))) (·.stage)) = some .idle ∧
      (after (step (accessing (rest 1 false 0) (.write32 0x1002 5))) (·.input)) = some [] ∧
      (after (step (accessing (rest 1 false 0) (.write8 0x0fff 5))) (·.input)) = some [] := by decide +kernel

/-- `RefusedReads`: the ends of each range of offsets. -/
theorem witness_refused_reads :
    (0x0c < (0x0d : BitVec 32).toNat ∧ (0x1f : BitVec 32).toNat < 0x20) ∧
      (0x40 ≤ (0x40 : BitVec 32).toNat ∧ (0x0fff : BitVec 32).toNat < 0x1000) ∧
      0x1000 + (rest 1 false 0).params.inCap ≤ (0x2000 : BitVec 32).toNat ∧ (0x21 : BitVec 32).toNat % 4 ≠ 0 ∧
      ([.read32 0x10, .read32 0x1c, .read32 0x40, .read32 0x2000, .read32 0x21, .read8 0x1f, .read8 0x40, .read8 0x2000] :
        List HostAccess).map (fun a => after (step (accessing (rest 1 false 0) a)) (·.freeCtr)) = List.replicate 8 (some 1) ∧
      ([.read32 4, .read32 8, .read32 0x1000, .read8 0x1000] : List HostAccess).map
        (fun a => after (step (accessing atZero a)) (·.freeCtr)) = List.replicate 4 (some 1) := by decide +kernel

/-- `Stops`: each clause at the first value that stops. -/
theorem witness_stops :
    (rest 1 false 0).busy = false ∧ (rest 1 false 0).ver ≠ 0 ∧ memWords (rest 1 false 0).ver ≤ (32768 : BitVec 32).toNat ∧
      1310 < { rest 1 false 0 with i := 1311 }.iNat ∧ 255 < { rest 1 false 0 with j := 256 }.jNat ∧
      27456 ≤ { rest 2 false 0 with j := 27456 }.jNat ∧ 54912 ≤ { rest 2 false 0 with r := 54912 }.r.toNat ∧
      67968 ≤ { rest 3 false 0 with r := 67968 }.r.toNat ∧
      { rest 2 false 0 with numChunks := 1, i := 1 }.numChunks.toNat ≤ { rest 2 false 0 with numChunks := 1, i := 1 }.iNat := by decide +kernel

end Sys2Proof.Tests
end

/-! The statements on the scope of the model (00_scope.md): the invariant of a run is kept by every step, and a digest is a
function of the version and the input. -/

namespace Sys2Proof.Machine

/-! ### The heads of the v2 and v3 mix -/

/-- The shim of v2 with its key (41_aes_shim.md R146, 00_scope.md R6). -/
theorem shim_two (a b : Word) :
    shim 2 a b = ~~~ (BitVec.ofNat 64 (leValue ((aesRound (le64 b ++ le64 a)
      [0x78, 0x65, 0x6c, 0x69, 0x73, 0x68, 0x61, 0x73, 0x68, 0x2d, 0x70, 0x6f, 0x77, 0x2d, 0x76, 0x32]).take 8))
        ^^^ (a ^^^ b)) := by
  rw [shim, if_neg (by decide)]
  rfl

/-- The shim of v3 with its key (41_aes_shim.md R146, 00_scope.md R6): both halves of the round's output. -/
theorem shim_three (a b : Word) :
    let out := aesRound (le64 b ++ le64 a)
      [0x78, 0x65, 0x6c, 0x69, 0x73, 0x68, 0x61, 0x73, 0x68, 0x2d, 0x70, 0x6f, 0x77, 0x2d, 0x76, 0x33]
    shim 3 a b = ~~~ (BitVec.ofNat 64 (leValue (out.take 8)) ^^^ BitVec.ofNat 64 (leValue (out.drop 8))) := by
  rw [shim, if_pos rfl]
  rfl

/-- Settles O41: the step's `RESULT` is the shim of the two words, which `shim_two` writes out. -/
theorem head2 : Obligations.Head2 := by
  intro s
  refine ⟨_, rfl, ?_⟩
  rw [shim_two]
  rfl

/-- Settles O46: as `head2`, with `shim_three`. -/
theorem head3 : Obligations.Head3 := by
  intro s
  refine ⟨_, rfl, ?_⟩
  rw [shim_three]
  rfl

/-! ### The host's accesses -/

/-- A host access that is a command runs it (47_finalize_host.md R295). -/
theorem step_of_command {s : State} {a : HostAccess} {rest : List Input} {c : Instr}
    (hin : s.inputs = .access a :: rest) (hc : decodeHost a = .ok c) : step s = exec c s.takeInput := by
  simp only [step, State.fetch, State.nextSelector, hin, decode, hc]

/-- A host access that is no command (log 18). -/
theorem step_of_noCommand {s : State} {a : HostAccess} {rest : List Input} {e : DecodeError}
    (hin : s.inputs = .access a :: rest) (hc : decodeHost a = .error e) :
    step s = .next (s.takeInput.otherAccess a) := by
  simp only [step, State.fetch, State.nextSelector, hin, decode, hc, State.noOperation]

theorem State.hostWrite_of_rest {s : State} (h : s.busy = false) (f : State → State) : s.hostWrite f = f s := by
  simp [State.hostWrite, h]

theorem State.hostWrite_of_busy {s : State} (h : s.busy = true) (f : State → State) : s.hostWrite f = s := by
  simp [State.hostWrite, h]

/-! ### START -/

/-- `START`'s checks raise two codes alone (47_finalize_host.md R297). -/
theorem State.startFault_cases (s : State) :
    s.startFault = .none ∨ s.startFault = .illegalVer ∨ s.startFault = .invalidInputLength := by
  simp only [State.startFault]
  repeat' split
  all_goals simp

/-- What `START` has checked when it accepts (47_finalize_host.md R297). -/
theorem State.checked_of_startFault {s : State} (h : s.startFault = .none) :
    s.ver ≠ 0 ∧ s.len.toNat ≤ s.params.inCap ∧
      (s.ver = 1 → (s.padded = false ∧ s.len = 200) ∨ (s.padded = true ∧ s.len.toNat ≤ 120)) := by
  simp only [State.startFault] at h
  split at h
  · cases h
  split at h
  · cases h
  split at h
  · cases h
  split at h
  · cases h
  rename_i hver hcap hplain hpadded
  refine ⟨hver, Nat.le_of_not_lt hcap, fun h1 => ?_⟩
  cases hp : s.padded with
  | false => exact .inl ⟨rfl, Decidable.not_not.1 fun hl => hplain ⟨h1, hp, hl⟩⟩
  | true => exact .inr ⟨rfl, Nat.le_of_not_lt fun hl => hpadded ⟨h1, hp, hl⟩⟩

theorem State.startRun_of_accepted {s : State} (h : s.startFault = .none) :
    s.startRun = { s with err := .none }.goto (if s.ver = 1 then .v1Absorb else .cfZero) 0 0 := by
  simp only [State.startRun, h]

theorem State.startRun_of_fault {s : State} (h : s.startFault ≠ .none) : s.startRun = s.raise s.startFault := by
  simp only [State.startRun]
  generalize s.startFault = e at h ⊢
  cases e
  case none => exact absurd rfl h
  all_goals rfl

theorem exec_start_of_rest {s : State} (h : s.busy = false) : exec .start s = .next s.startRun :=
  congrArg Host.Outcome.next (State.hostWrite_of_rest h State.startRun)

/-- `START` with the code of its first failing check (47_finalize_host.md R297). -/
theorem State.startRun_of_startFault {s : State} {e : ErrCode} (h : s.startFault = e) (he : e ≠ .none) :
    s.startRun = s.raise e := by
  rw [State.startRun_of_fault (h ▸ he), h]

/-- Settles O52: one case for each check of `START`, in their order, and one for the run that begins. -/
theorem start : Obligations.Start := by
  intro s hrest
  have hlen : s.len.toNat ≠ 200 ↔ s.len ≠ 200 := not_congr ⟨fun h => BitVec.eq_of_toNat_eq h, fun h => by rw [h]; rfl⟩
  rw [exec_start_of_rest hrest]
  refine congrArg Host.Outcome.next ?_
  by_cases hver : s.ver = 0
  · rw [if_pos hver, State.startRun_of_startFault (if_pos hver) (by decide)]
    rfl
  have hcheck : s.startFault = _ := if_neg hver
  rw [if_neg hver]
  by_cases hcap : s.params.inCap < s.len.toNat
  · rw [if_pos hcap, State.startRun_of_startFault (hcheck.trans (if_pos hcap)) (by decide)]
    rfl
  rw [if_neg hcap]
  replace hcheck := hcheck.trans (if_neg hcap)
  by_cases hplain : s.ver = 1 ∧ s.padded = false ∧ s.len ≠ 200
  · rw [if_pos (by rwa [hlen]), State.startRun_of_startFault (hcheck.trans (if_pos hplain)) (by decide)]
    rfl
  rw [if_neg (by rwa [hlen])]
  replace hcheck := hcheck.trans (if_neg hplain)
  by_cases hpadded : s.ver = 1 ∧ s.padded = true ∧ 120 < s.len.toNat
  · rw [if_pos hpadded, State.startRun_of_startFault (hcheck.trans (if_pos hpadded)) (by decide)]
    rfl
  rw [if_neg hpadded, State.startRun_of_accepted (hcheck.trans (if_neg hpadded))]
  rfl

/-! ### WRIN and the reads of IN -/

theorem exec_wrin_byte_of_rest {s : State} (h : s.busy = false) (k : BitVec 32) (b : Byte) :
    exec (.wrin (.byte k b)) s = .next (s.setInBytes k.toNat [b]) :=
  congrArg Host.Outcome.next (State.hostWrite_of_rest h fun s => s.setInBytes k.toNat [b])

theorem exec_wrin_word_of_rest {s : State} (h : s.busy = false) (w : BitVec 30) (v : Half) :
    exec (.wrin (.word w v)) s = .next (s.setInBytes (4 * w.toNat) (le32 v)) :=
  congrArg Host.Outcome.next (State.hostWrite_of_rest h fun s => s.setInBytes (4 * w.toNat) (le32 v))

/-- What a byte of `IN` reads as after a write: the window ends at `IN_CAP` (47_finalize_host.md R302). -/
theorem State.read_setInBytes (s : State) (k : Nat) (bs : List Byte) (a : Nat) :
    (s.setInBytes k bs).input.read a =
      if k ≤ a ∧ a < k + bs.length ∧ a < s.params.inCap then bs.getD (a - k) 0 else s.input.read a := by
  rw [State.setInBytes, Memory.read_writeBytes, List.length_take]
  by_cases h : k ≤ a ∧ a < k + bs.length ∧ a < s.params.inCap
  · obtain ⟨h1, h2, h3⟩ := h
    rw [if_pos (by omega), if_pos ⟨h1, h2, h3⟩, List.getD_eq_getElem?_getD, List.getElem?_take_of_lt (by omega),
      ← List.getD_eq_getElem?_getD]
  · rw [if_neg (by omega), if_neg h]

/-- A read access to `IN` is no command (10_state.md R21). -/
theorem decodeHost_read8_in {off : BitVec 32} (h : 0x1000 ≤ off.toNat) : decodeHost (.read8 off) = .error .noCommand :=
  if_neg (by omega)

/-- A read access to `IN` is no command (10_state.md R21). -/
theorem decodeHost_read32_in {off : BitVec 32} (h : 0x1000 ≤ off.toNat) :
    decodeHost (.read32 off) = .error .noCommand :=
  (if_neg (by omega)).trans (if_neg (by omega))

/-- A byte of `IN` read at rest (10_state.md R21, 47_finalize_host.md R302). -/
theorem State.otherAccess_read8_in {s : State} {off : BitVec 32} (hrest : s.busy = false) (h : 0x1000 ≤ off.toNat)
    (hcap : off.toNat < 0x1000 + s.params.inCap) :
    s.otherAccess (.read8 off) = s.hostRead ((s.input.read (off.toNat - 0x1000)).setWidth 64) :=
  if_pos ⟨hrest, h, hcap⟩

/-- An aligned word of `IN` read at rest (10_state.md R21, 47_finalize_host.md R302). -/
theorem State.otherAccess_read32_in {s : State} {off : BitVec 32} (hrest : s.busy = false) (h : 0x1000 ≤ off.toNat)
    (hcap : off.toNat + 4 ≤ 0x1000 + s.params.inCap) (hal : off.toNat % 4 = 0) :
    s.otherAccess (.read32 off) =
      s.hostRead ((BitVec.ofNat 32 (s.input.readLE (off.toNat - 0x1000) 4)).setWidth 64) := by
  have h0 : off ≠ 0 := by rintro rfl; exact absurd h (by decide)
  have hw : s.windowRead off.toNat = some (BitVec.ofNat 32 (s.input.readLE (off.toNat - 0x1000) 4)) :=
    (if_neg (by omega)).trans ((if_neg (by omega)).trans (if_pos ⟨h, hcap, hal⟩))
  simp only [State.otherAccess, if_neg h0, hrest, hw, Bool.false_eq_true, if_false]

/-- Byte `m` of a little-endian word of a memory, held in a wider register (20_memory.md R62, R65). -/
theorem extract_setWidth_readLE (mem : Memory) (a : Nat) {m : Nat} (h : m < 4) :
    ((BitVec.ofNat 32 (mem.readLE a 4)).setWidth 64).extractLsb' (8 * m) 8 = mem.read (a + m) := by
  rw [BitVec.extractLsb'_setWidth_of_le (by omega), Memory.readLE, extract_ofNat_leValue 32 _ (by omega),
    Memory.getD_readBytes, if_pos h]

/-- Settles O57: the two writes by `State.read_setInBytes`, the two reads as accesses that are no command. -/
theorem writeIn : Obligations.WriteIn := by
  intro s hrest
  refine ⟨fun k b => ⟨_, exec_wrin_byte_of_rest hrest k b, ?_, ?_, rfl⟩,
    fun w v => ⟨_, exec_wrin_word_of_rest hrest w v, ?_, ?_, rfl⟩, ?_, ?_⟩
  · intro hk
    rw [State.read_setInBytes, if_pos (by simp [hk])]
    simp
  · intro a ha
    rw [State.read_setInBytes, if_neg (by simp only [List.length_singleton]; omega)]
  · intro m hm hcap
    rw [State.read_setInBytes, if_pos (by rw [length_le32]; omega), Nat.add_sub_cancel_left, getD_le32 v hm]
  · intro a ha
    rw [State.read_setInBytes, if_neg (by rw [length_le32]; omega)]
  · intro off rest hin hlo hcap
    rw [step_of_noCommand hin (decodeHost_read8_in hlo),
      State.otherAccess_read8_in (s := s.takeInput) hrest hlo hcap, BitVec.ofNat_toNat]
    simp only [State.hostRead, State.takeInput, hin, List.tail_cons]
  · intro off rest hin hlo hcap hal
    refine ⟨_, (step_of_noCommand hin (decodeHost_read32_in hlo)).trans
      (congrArg _ (State.otherAccess_read32_in (s := s.takeInput) hrest hlo hcap hal)), ?_, ?_, ?_⟩
    · simp only [State.hostRead_hostData, BitVec.toNat_setWidth]
      omega
    · exact fun m hm => extract_setWidth_readLE s.input _ hm
    · simp only [State.hostRead, State.takeInput, hin, List.tail_cons]

/-! ### Memories within a space (20_memory.md R60) -/

/-- A memory in canonical form that lists nothing from byte `n` on. -/
def Memory.Within (n : Nat) (m : Memory) : Prop := m.wf ∧ ∀ c ∈ m, c.1 < n

theorem Memory.within_nil (n : Nat) : Memory.Within n [] := ⟨Memory.wf_nil, by simp⟩

theorem Memory.Within.filter {n : Nat} {m : Memory} (h : m.Within n) (p : Host.Cell → Bool) :
    Memory.Within n (m.filter p) :=
  ⟨Memory.wf_filter h.1 p, fun c hc => h.2 c (List.mem_filter.1 hc).1⟩

theorem Memory.Within.writeBytes {n : Nat} {m : Memory} (h : m.Within n) {a : Nat} {bs : List Byte}
    (hb : a + bs.length ≤ n) : (m.writeBytes a bs).Within n :=
  ⟨Memory.wf_writeBytes h.1 a bs, Memory.range_writeBytes h.2 hb⟩

/-- A write of no byte lists nothing new, wherever it is. -/
theorem Memory.Within.writeBytes_nil {n : Nat} {m : Memory} (h : m.Within n) (a : Nat) :
    (m.writeBytes a []).Within n := by
  refine ⟨Memory.wf_writeBytes h.1 a [], fun c hc => h.2 c ?_⟩
  simp only [Memory.writeBytes, Memory.cells, List.append_nil, List.mem_append, List.mem_filter] at hc
  exact hc.elim And.left And.left

theorem Memory.Within.setPad64 {n : Nat} {s : State} (h : s.pad.Within n) {k : Nat} (hk : 8 * k + 8 ≤ n) (w : Word) :
    (s.setPad64 k w).pad.Within n :=
  h.writeBytes (by rwa [length_le64])

theorem Memory.Within.setPad32s {n : Nat} {s : State} (h : s.pad.Within n) (k : Nat) (f : Nat → Half) (l : Nat)
    (hk : 4 * (k + l) ≤ n) : (s.setPad32s k f l).pad.Within n := by
  induction l with
  | zero => exact h
  | succ l ih =>
    have e : s.setPad32s k f (l + 1) = (s.setPad32s k f l).setPad32 (k + l) (f l) := by
      simp [State.setPad32s, List.range_succ]
    rw [e]
    exact (ih (by omega)).writeBytes (by rw [length_le32]; omega)

/-- `IN` ends at `IN_CAP` (47_finalize_host.md R302). -/
theorem Memory.Within.setInBytes {s : State} (h : s.input.Within s.params.inCap) (k : Nat) (bs : List Byte) :
    (s.setInBytes k bs).input.Within s.params.inCap := by
  rw [State.setInBytes_input]
  by_cases hk : k ≤ s.params.inCap
  · exact h.writeBytes (by rw [List.length_take]; omega)
  · rw [show s.params.inCap - k = 0 by omega, List.take_zero]
    exact h.writeBytes_nil k

theorem memWords_le (ver : BitVec 2) : memWords ver ≤ 67968 := by
  simp only [memWords]
  split <;> decide

theorem memBytes_le (ver : BitVec 2) : memBytes ver ≤ 8 * 67968 := Nat.mul_le_mul_left 8 (memWords_le ver)

theorem hostPadWords_le (ver : BitVec 2) : hostPadWords ver ≤ 67968 := by
  rw [hostPadWords]
  split
  · exact Nat.le_refl _
  · exact memWords_le ver

theorem mixVer_of_or {ver : BitVec 2} (h : ver = 2 ∨ ver = 3) : mixVer ver = true := by
  rcases h with rfl | rfl <;> rfl

/-! ### What every sequencer operation keeps -/

/-- The registers that no sequencer operation writes: those of the host, and the model's own list of the host's moves. -/
structure SeqFrame (s t : State) : Prop where
  params : t.params = s.params
  ver : t.ver = s.ver
  padded : t.padded = s.padded
  len : t.len = s.len
  input : t.input = s.input
  inputs : t.inputs = s.inputs

theorem SeqFrame.trans {s t u : State} (h : SeqFrame s t) (k : SeqFrame t u) : SeqFrame s u where
  params := k.params.trans h.params
  ver := k.ver.trans h.ver
  padded := k.padded.trans h.padded
  len := k.len.trans h.len
  input := k.input.trans h.input
  inputs := k.inputs.trans h.inputs

/-- The operation answers a next state, in which the host's registers are kept and the invariant holds. -/
def Progress (s : State) (r : Result) : Prop := ∃ t, r = .next t ∧ SeqFrame s t ∧ RunInv t

theorem RunInv.pad_within {s : State} (h : RunInv s) : s.pad.Within (8 * 67968) := ⟨h.padWf, h.padRange⟩

theorem RunInv.input_within {s : State} (h : RunInv s) : s.input.Within s.params.inCap := ⟨h.inputWf, h.inputRange⟩

theorem State.stage_ne_fault_of_busy {s : State} (hb : s.busy = true) : s.stage ≠ .fault := fun h => by
  simp [State.busy, h] at hb

/-- No code is set during a run (10_state.md R27). -/
theorem RunInv.err_of_busy {s : State} (h : RunInv s) (hb : s.busy = true) : s.err = .none :=
  Decidable.not_not.1 fun he => State.stage_ne_fault_of_busy hb (h.errFault.1 he)

/-- The parts of the invariant that an operation has to prove anew when it moves on to another position. -/
theorem RunInv.progress_goto {s u : State} {st : Stage} {i j : Half} (h : RunInv s) (hb : s.busy = true)
    (hf : SeqFrame s u) (herr : u.err = s.err) (hpad : u.pad.Within (8 * 67968)) (hst : st ≠ .fault)
    (hseq : (u.goto st i j).SeqOk) (hcur : (u.goto st i j).CursorOk) (hfill : (u.goto st i j).FillOk) :
    Progress s (.next (u.goto st i j)) := by
  have hnone : u.err = .none := herr.trans (h.err_of_busy hb)
  refine ⟨_, rfl, ⟨hf.params, hf.ver, hf.padded, hf.len, hf.input, hf.inputs⟩, ?_⟩
  exact {
    params := hf.params ▸ h.params
    seq := hseq
    cursor := hcur
    len := fun _ => by
      simp only [State.goto_len, State.goto_params, State.goto_ver, State.goto_padded, hf.len, hf.params, hf.ver, hf.padded]
      exact h.len hb
    fill := hfill
    errFault := ⟨fun he => absurd hnone he, fun hs => absurd hs hst⟩
    errRaised := by simp [hnone]
    padWf := hpad.1
    padRange := hpad.2
    inputWf := by rw [State.goto_input, hf.input]; exact h.inputWf
    inputRange := by rw [State.goto_input, State.goto_params, hf.input, hf.params]; exact h.inputRange }

/-- Raising one of the codes that the engine raises (60_exceptions.md R321, R330) keeps the invariant. -/
theorem RunInv.raise {s : State} (h : RunInv s) {e : ErrCode} (he : e ≠ .none)
    (hr : e ≠ .primitiveError ∧ e ≠ .invalidHash) : RunInv (s.raise e) where
  params := h.params
  seq := ⟨rfl, rfl⟩
  cursor := trivial
  len := fun hb => nomatch hb
  fill := fun hs => nomatch hs
  errFault := ⟨fun _ => rfl, fun _ => he⟩
  errRaised := hr
  padWf := h.padWf
  padRange := h.padRange
  inputWf := h.inputWf
  inputRange := h.inputRange

/-- No stage but `S_CF_CHUNK` has a condition on the fill's registers. -/
theorem State.fillOk_of_ne {s : State} (h : s.stage ≠ .cfChunk) : s.FillOk := fun hs => absurd hs h

theorem State.fillOk_goto {s : State} {st : Stage} {i j : Half} (h : st ≠ .cfChunk) : (s.goto st i j).FillOk :=
  State.fillOk_of_ne h

/-- The ranges of the position, read at a known stage (10_state.md R25). -/
theorem RunInv.seq_at {s : State} (h : RunInv s) {st : Stage} (hst : s.stage = st) :
    ({ s with stage := st } : State).SeqOk :=
  hst ▸ h.seq

/-- The cursor, read at a known stage (10_state.md R33). -/
theorem RunInv.cursor_at {s : State} (h : RunInv s) {st : Stage} (hst : s.stage = st) :
    ({ s with stage := st } : State).CursorOk :=
  hst ▸ h.cursor

/-! ### The v1 fill and permutation -/

theorem exec_absorb_progress {s : State} (h : RunInv s) (hst : s.stage = .v1Absorb) : Progress s (exec .absorb s) := by
  obtain ⟨hver, -, -⟩ : s.ver = 1 ∧ s.i = 0 ∧ s.j = 0 := h.seq_at hst
  exact h.progress_goto (by simp [State.busy, hst]) ⟨rfl, rfl, rfl, rfl, rfl, rfl⟩ rfl h.pad_within (by decide)
    ⟨hver, Nat.zero_le _, rfl⟩ trivial (State.fillOk_goto (by decide))

theorem State.fillPass_pad (s : State) (op : Word → Word → Word) :
    (s.fillPass op).pad = s.pad.writeBytes (8 * (25 * s.iNat + s.jNat))
      (le64 ((regGet s.kstate s.jNat ^^^ s.rand) ^^^ op s.fillLeft s.fillRight)) := by
  rw [State.fillPass, State.fillNext_eq]
  rfl

/-- The fill writes inside the scratchpad of v1 (42_v1_fill_permute.md R151). -/
theorem fillWord_lt {i j : Nat} (hi : i ≤ 1310) (hj : j < rowLength i) : 25 * i + j < 32768 := by
  rw [rowLength, stage1Max] at hj
  split at hj <;> omega

/-- What the passes of a fill row leave (42_v1_fill_permute.md R151): the host's registers, the scratchpad's space, and the
position after the row. -/
structure RowDone (s t : State) : Prop where
  frame : SeqFrame s t
  err : t.err = s.err
  pad : t.pad.Within (8 * 67968)
  next : s.iNat < 1310 → t.stage = .v1Fill ∧ t.iNat = s.iNat + 1 ∧ t.j = 0
  last : s.iNat = 1310 → t.stage = .v1Slotld ∧ t.i = 0 ∧ t.j = 0

/-- One pass: the host's registers and the scratchpad's space. -/
theorem State.fillSelected_frame {s : State} (hi : s.iNat ≤ 1310) (hj : s.jNat < rowLength s.iNat)
    (hp : s.pad.Within (8 * 67968)) :
    SeqFrame s s.fillSelected ∧ s.fillSelected.err = s.err ∧ s.fillSelected.pad.Within (8 * 67968) := by
  obtain ⟨heq, -⟩ := State.fillPass_spec s (fillOp (fillSelect s.fillLeft s.fillRight)) hi hj
  have hlt := fillWord_lt hi hj
  refine ⟨?_, ?_, ?_⟩
  · rw [State.fillSelected, heq]
    exact ⟨rfl, rfl, rfl, rfl, rfl, rfl⟩
  · rw [State.fillSelected, heq]
  · rw [State.fillSelected, State.fillPass_pad]
    exact hp.writeBytes (by rw [length_le64]; omega)

/-- The passes from word `j` to the end of the row. -/
theorem State.fillRow_done (n : Nat) {s : State} (hi : s.iNat ≤ 1310) (hj : s.jNat + (n + 1) = rowLength s.iNat)
    (hp : s.pad.Within (8 * 67968)) : RowDone s (iterate State.fillSelected (n + 1) s) := by
  induction n generalizing s with
  | zero =>
    obtain ⟨hf, herr, hpad⟩ := State.fillSelected_frame hi (by omega) hp
    obtain ⟨-, -, -, -, -, hnext, hlast⟩ :=
      State.fillPass_spec s (fillOp (fillSelect s.fillLeft s.fillRight)) hi (by omega)
    exact ⟨hf, herr, hpad, hnext hj, hlast hj⟩
  | succ n ih =>
    obtain ⟨hf, herr, hpad⟩ := State.fillSelected_frame hi (by omega) hp
    obtain ⟨-, -, -, -, hnext, -, -⟩ :=
      State.fillPass_spec s (fillOp (fillSelect s.fillLeft s.fillRight)) hi (by omega)
    obtain ⟨-, hi', hj'⟩ := hnext (by omega)
    have hi'' : s.fillSelected.iNat = s.iNat := congrArg BitVec.toNat hi'
    have hj'' : s.fillSelected.jNat = s.jNat + 1 := hj'
    have hrow := ih (s := s.fillSelected) (by rw [hi'']; exact hi) (by rw [hi'', hj'']; omega) hpad
    exact ⟨hf.trans hrow.frame, hrow.err.trans herr, hrow.pad, hi'' ▸ hrow.next, hi'' ▸ hrow.last⟩

/-- The position after a row, for the invariant. -/
theorem RowDone.progress {s t : State} (h : RunInv s) (hb : s.busy = true) (hver : s.ver = 1) (hi : s.iNat ≤ 1310)
    (hrow : RowDone s t) : Progress s (.next t) := by
  have key : t.stage ≠ .fault ∧ t.SeqOk ∧ t.CursorOk ∧ t.FillOk := by
    rcases Nat.lt_or_eq_of_le hi with hlt | heq
    · obtain ⟨hst, hi', hj'⟩ := hrow.next hlt
      refine ⟨by simp [hst], ?_, ?_, State.fillOk_of_ne (by simp [hst])⟩
      · simp only [State.SeqOk, hst]
        exact ⟨hrow.frame.ver.trans hver, by omega, hj'⟩
      · simp only [State.CursorOk, hst]
    · obtain ⟨hst, hi', hj'⟩ := hrow.last heq
      refine ⟨by simp [hst], ?_, ?_, State.fillOk_of_ne (by simp [hst])⟩
      · simp only [State.SeqOk, hst]
        exact ⟨hrow.frame.ver.trans hver, hi', hj'⟩
      · simp only [State.CursorOk, hst]
  obtain ⟨hst, hseq, hcur, hfill⟩ := key
  exact h.progress_goto (u := t) (st := t.stage) (i := t.i) (j := t.j) hb hrow.frame hrow.err hrow.pad hst hseq hcur hfill

theorem exec_kfill_progress {s : State} (h : RunInv s) (hst : s.stage = .v1Fill) : Progress s (exec .kfill s) := by
  obtain ⟨hver, hi, -⟩ : s.ver = 1 ∧ s.iNat ≤ 1310 ∧ s.j = 0 := h.seq_at hst
  obtain ⟨n, hn⟩ : ∃ n, rowLength s.iNat = n + 1 := ⟨rowLength s.iNat - 1, by rw [rowLength]; split <;> rfl⟩
  have hrow := State.fillRow_done n (s := { s with kstate := keccakPerm s.kstate, rand := 0, j := 0 }) hi
    (by rw [Nat.add_comm]; exact hn.symm) h.pad_within
  have hexec : exec .kfill s =
      .next (iterate State.fillSelected (n + 1) { s with kstate := keccakPerm s.kstate, rand := 0, j := 0 }) := by
    rw [← hn]
    exact if_pos hi
  rw [hexec]
  exact RowDone.progress h (by simp [State.busy, hst]) hver hi
    ⟨⟨hrow.frame.params, hrow.frame.ver, hrow.frame.padded, hrow.frame.len, hrow.frame.input, hrow.frame.inputs⟩,
      hrow.err, hrow.pad, hrow.next, hrow.last⟩

theorem exec_slotld_progress {s : State} (h : RunInv s) (hst : s.stage = .v1Slotld) : Progress s (exec .slotld s) := by
  obtain ⟨hver, -, -⟩ : s.ver = 1 ∧ s.i = 0 ∧ s.j = 0 := h.seq_at hst
  exact h.progress_goto (by simp [State.busy, hst]) ⟨rfl, rfl, rfl, rfl, rfl, rfl⟩ rfl h.pad_within (by decide)
    ⟨hver, rfl, Nat.zero_le _⟩ trivial (State.fillOk_goto (by decide))

/-- What `PERM` does before it moves on (42_v1_fill_permute.md R158): it writes slots, indices and `TOTALSUM`. -/
theorem State.perm_eq (n : Nat) (s : State) : ∃ slots indices total,
    State.permPhase2 n s.permPhase1 = { s with slots := slots, indices := indices, totalSum := total } := by
  obtain ⟨sum, initial, hphase⟩ : ∃ sum initial, s.permPhase1 = { s with totalSum := sum, indices := initial } :=
    ⟨_, _, rfl⟩
  rw [hphase]
  exact ⟨_, _, _, State.permPhase2_eq n _⟩

theorem exec_perm_progress {s : State} (h : RunInv s) (hst : s.stage = .v1Perm) : Progress s (exec .perm s) := by
  obtain ⟨hver, hi, hj⟩ : s.ver = 1 ∧ s.i = 0 ∧ s.jNat ≤ 255 := h.seq_at hst
  have hb : s.busy = true := by simp [State.busy, hst]
  have hs := State.toNat_succ (x := s.j) (n := 256) (Nat.lt_succ_of_le hj) (by omega)
  obtain ⟨slots, indices, total, hperm⟩ := s.perm_eq 256
  simp only [exec, execPerm, if_pos hj, hperm, State.permNext]
  split
  · rename_i hlt
    exact h.progress_goto hb ⟨rfl, rfl, rfl, rfl, rfl, rfl⟩ rfl h.pad_within (by decide)
      ⟨hver, hi, hs.trans_le hlt⟩ trivial (State.fillOk_goto (by decide))
  · rw [if_neg (by simp [State.iNat, hi])]
    exact h.progress_goto hb ⟨rfl, rfl, rfl, rfl, rfl, rfl⟩ rfl h.pad_within (by decide)
      ⟨hver, rfl, rfl⟩ trivial (State.fillOk_goto (by decide))

/-- `SLOTWB` before it moves on (42_v1_fill_permute.md R161): it writes the scratchpad. -/
theorem State.setPad32s_within {s : State} (h : s.pad.Within (8 * 67968)) (k : Nat) (f : Nat → Half) (l : Nat)
    (hk : 4 * (k + l) ≤ 8 * 67968) : ∃ pad, s.setPad32s k f l = { s with pad := pad } ∧ pad.Within (8 * 67968) :=
  ⟨_, State.setPad32s_eq s k f l, h.setPad32s k f l hk⟩

theorem exec_slotwb_progress {s : State} (h : RunInv s) (hst : s.stage = .v1Slotwb) : Progress s (exec .slotwb s) := by
  obtain ⟨hver, -, -⟩ : s.ver = 1 ∧ s.i = 0 ∧ s.j = 0 := h.seq_at hst
  obtain ⟨pad, heq, hpad⟩ :=
    State.setPad32s_within h.pad_within slotHome (fun k => regGet s.slots k) 256 (by rw [slotHome]; omega)
  simp only [exec, execSlotwb, heq]
  exact h.progress_goto (by simp [State.busy, hst]) ⟨rfl, rfl, rfl, rfl, rfl, rfl⟩ rfl hpad (by decide)
    ⟨hver, rfl, rfl⟩ trivial (State.fillOk_goto (by decide))

/-! ### The v1 mix -/

/-- A 15-bit slice is a word of the scratchpad of v1 (20_memory.md R70). -/
theorem toNat_slice15_lt (x : Word) (n : Nat) : (slice15 x n).toNat < 32768 := by
  rw [slice15, BitVec.toNat_and]
  exact Nat.lt_of_le_of_lt Nat.and_le_right (by decide)

theorem exec_prime_progress {s : State} (h : RunInv s) (hst : s.stage = .v1Prime) : Progress s (exec .prime s) := by
  obtain ⟨hver, -, -⟩ : s.ver = 1 ∧ s.i = 0 ∧ s.j = 0 := h.seq_at hst
  exact h.progress_goto (by simp [State.busy, hst]) ⟨rfl, rfl, rfl, rfl, rfl, rfl⟩ rfl h.pad_within (by decide)
    ⟨hver, Nat.zero_le _, rfl⟩ trivial (State.fillOk_goto (by decide))

theorem exec_head1_progress {s : State} (h : RunInv s) (hst : s.stage = .v1Head) : Progress s (exec .head1 s) := by
  obtain ⟨hver, hi, -⟩ : s.ver = 1 ∧ s.iNat ≤ 4999 ∧ s.j = 0 := h.seq_at hst
  exact h.progress_goto (by simp [State.busy, hst]) ⟨rfl, rfl, rfl, rfl, rfl, rfl⟩ rfl h.pad_within (by decide)
    ⟨hver, hi, Nat.zero_le _⟩ trivial (State.fillOk_goto (by decide))

/-- The step of `BR1` with any entry (43_v1_mix.md R172). -/
theorem v1Step_progress {s : State} (entry : V1Operands → Word) (h : RunInv s) (hst : s.stage = .v1Br) :
    Progress s (v1Step entry s) := by
  obtain ⟨hver, hi, hj⟩ : s.ver = 1 ∧ s.iNat ≤ 4999 ∧ s.jNat ≤ 31 := h.seq_at hst
  have hb : s.busy = true := by simp [State.busy, hst]
  have hs := State.toNat_succ (x := s.j) (n := 32) (Nat.lt_succ_of_le hj) (by omega)
  simp only [v1Step]
  split
  · rename_i hlt
    exact h.progress_goto hb ⟨rfl, rfl, rfl, rfl, rfl, rfl⟩ rfl h.pad_within (by decide)
      ⟨hver, hi, hs.trans_le hlt⟩ trivial (State.fillOk_goto (by decide))
  · exact h.progress_goto hb ⟨rfl, rfl, rfl, rfl, rfl, rfl⟩ rfl h.pad_within (by decide)
      ⟨hver, hi, rfl⟩ trivial (State.fillOk_goto (by decide))

theorem exec_tail1_progress {s : State} (h : RunInv s) (hst : s.stage = .v1Tail) : Progress s (exec .tail1 s) := by
  obtain ⟨hver, hi, -⟩ : s.ver = 1 ∧ s.iNat ≤ 4999 ∧ s.j = 0 := h.seq_at hst
  have hb : s.busy = true := by simp [State.busy, hst]
  have hs := State.toNat_succ (x := s.i) (n := 5000) (Nat.lt_succ_of_le hi) (by omega)
  have hlt := toNat_slice15_lt s.result 15
  have hpad := h.pad_within.setPad64 (k := (slice15 s.result 15).toNat) (by omega) s.result
  simp only [exec, execTail1]
  split
  · rename_i hlt
    exact h.progress_goto hb ⟨rfl, rfl, rfl, rfl, rfl, rfl⟩ rfl hpad (by decide)
      ⟨hver, hs.trans_le hlt, rfl⟩ trivial (State.fillOk_goto (by decide))
  · exact h.progress_goto hb ⟨rfl, rfl, rfl, rfl, rfl, rfl⟩ rfl hpad (by decide)
      ⟨rfl, rfl⟩ trivial (State.fillOk_goto (by decide))

/-! ### The v2 and v3 fill -/

theorem exec_cfzero_progress {s : State} (h : RunInv s) (hst : s.stage = .cfZero) : Progress s (exec .cfzero s) := by
  obtain ⟨hver, -, -⟩ : (s.ver = 2 ∨ s.ver = 3) ∧ s.i = 0 ∧ s.j = 0 := h.seq_at hst
  simp only [exec, execCfzero, if_pos (mixVer_of_or hver)]
  exact h.progress_goto (by simp [State.busy, hst]) ⟨rfl, rfl, rfl, rfl, rfl, rfl⟩ rfl (h.pad_within.filter _) (by decide)
    ⟨hver, rfl, rfl⟩ trivial (State.fillOk_goto (by decide))

theorem exec_cfseed_progress {s : State} (h : RunInv s) (hst : s.stage = .cfSeed) : Progress s (exec .cfseed s) := by
  obtain ⟨hver, -, -⟩ : (s.ver = 2 ∨ s.ver = 3) ∧ s.i = 0 ∧ s.j = 0 := h.seq_at hst
  have hb : s.busy = true := by simp [State.busy, hst]
  simp only [exec, execCfseed]
  split
  · exact h.progress_goto hb ⟨rfl, rfl, rfl, rfl, rfl, rfl⟩ rfl h.pad_within (by decide)
      ⟨hver, rfl, rfl⟩ trivial (State.fillOk_goto (by decide))
  · rename_i hn
    have hpos : 0 < (chunkCount s.len).toNat := by
      rw [Nat.pos_iff_ne_zero]
      exact fun h0 => hn (BitVec.eq_of_toNat_eq h0)
    refine h.progress_goto hb ⟨rfl, rfl, rfl, rfl, rfl, rfl⟩ rfl h.pad_within (by decide)
      ⟨hver, hpos, rfl⟩ trivial fun _ => ⟨rfl, Nat.zero_le _, ?_, fun _ => ?_⟩
    · exact Nat.le_of_eq (Nat.mul_comm _ _)
    · exact (Nat.zero_mul _).symm

/-- A chunk takes its share of what is left (44_chacha_fill.md R202, R206): with `mem` bytes in `n` chunks and `off` given
out before chunk `k`, the share fits, leaves the other chunks theirs, and is `mem / n` where `n` divides `mem`. -/
theorem chunk_share {mem n k off : Nat} (hk : k < n) (hoff : off ≤ mem) (hleft : mem * (n - k) ≤ n * (mem - off))
    (hexact : n ∣ mem → off = k * (mem / n)) :
    let cur := (mem - off) / (n - k)
    off + cur ≤ mem ∧ mem * (n - (k + 1)) ≤ n * (mem - (off + cur)) ∧
      (n ∣ mem → off + cur = (k + 1) * (mem / n)) := by
  intro cur
  have hcur : cur ≤ mem - off := Nat.div_le_self _ _
  have hmul : cur * (n - k) ≤ mem - off := Nat.div_mul_le_self _ _
  refine ⟨by omega, ?_, fun hd => ?_⟩
  · obtain ⟨d, hd⟩ : ∃ d, n - k = d + 1 := ⟨n - k - 1, by omega⟩
    obtain ⟨rem, hrem⟩ : ∃ rem, mem - off = cur + rem := ⟨mem - off - cur, by omega⟩
    rw [hd, hrem] at hleft hmul
    rw [show n - (k + 1) = d by omega, show mem - (off + cur) = rem by omega]
    have hshare : cur * d ≤ rem := by rw [Nat.mul_succ] at hmul; omega
    refine Nat.le_of_mul_le_mul_right (c := d + 1) ?_ (Nat.succ_pos d)
    calc mem * d * (d + 1) = mem * (d + 1) * d := Nat.mul_right_comm _ _ _
      _ ≤ n * (cur + rem) * d := Nat.mul_le_mul_right d hleft
      _ = n * (cur * d + rem * d) := by rw [Nat.mul_assoc, Nat.add_mul]
      _ ≤ n * (rem + rem * d) := Nat.mul_le_mul_left n (Nat.add_le_add_right hshare _)
      _ = n * rem * (d + 1) := by rw [Nat.mul_assoc, Nat.mul_succ, Nat.add_comm]
  · obtain ⟨q, rfl⟩ := hd
    have hn : 0 < n := by omega
    have hq : n * q / n = q := Nat.mul_div_cancel_left q hn
    have hoff' : off = k * q := by rw [← hq]; exact hexact ⟨q, rfl⟩
    have hcur' : cur = q := by
      have : n * q - off = (n - k) * q := by rw [hoff', Nat.sub_mul]
      rw [show cur = (n * q - off) / (n - k) from rfl, this, Nat.mul_div_cancel_left q (by omega)]
    rw [hq, hoff', hcur', Nat.succ_mul]

/-- `cur` of `CFCHUNK` as a number (44_chacha_fill.md R202): no 64-bit operation wraps, and the share is never more than what
is left. -/
theorem State.toNat_chunkCur {s : State} (hk : s.iNat < s.numChunks.toNat) (hoff : s.outOff.toNat ≤ memBytes s.ver) :
    s.chunkCur.toNat = (memBytes s.ver - s.outOff.toNat) / (s.numChunks.toNat - s.iNat) := by
  have hmem := memBytes_le s.ver
  have hn := s.numChunks.isLt
  simp only [State.iNat] at hk ⊢
  have hrem : (BitVec.ofNat 64 (memBytes s.ver) - s.outOff).toNat = memBytes s.ver - s.outOff.toNat := by
    rw [BitVec.toNat_sub, BitVec.toNat_ofNat]
    omega
  have hcount : (s.numChunks.setWidth 64 - s.i.setWidth 64 : Word).toNat = s.numChunks.toNat - s.i.toNat := by
    rw [BitVec.toNat_sub, BitVec.toNat_setWidth, BitVec.toNat_setWidth]
    omega
  have hle := Nat.div_le_self (memBytes s.ver - s.outOff.toNat) (s.numChunks.toNat - s.i.toNat)
  simp only [State.chunkCur]
  rw [if_neg, BitVec.toNat_udiv, hrem, hcount]
  rw [BitVec.lt_def, BitVec.toNat_udiv, hrem, hcount]
  omega

/-- What a chunk that fits writes (44_chacha_fill.md R202): the scratchpad, `OUTOFF` and `NONCE`. -/
theorem State.chunkFill_eq (s : State) (offset cur : Nat) : ∃ pad nonce,
    s.chunkFill offset cur = { s with pad := pad, outOff := s.outOff + BitVec.ofNat 64 cur, nonce := nonce } :=
  ⟨_, _, rfl⟩

/-- The fill writes inside its range (44_chacha_fill.md R202). -/
theorem State.chunkFill_within {s : State} {n : Nat} (h : s.pad.Within n) {offset cur : Nat} (hfit : offset + cur ≤ n) :
    (s.chunkFill offset cur).pad.Within n := by
  refine h.writeBytes (Nat.le_trans (Nat.add_le_add_left ?_ _) hfit)
  rw [List.length_zipWith, State.padBytes, Memory.length_readBytes]
  exact Nat.min_le_left _ _

/-- The invariant does not speak of `H`. -/
theorem RunInv.set_h {s : State} (h : RunInv s) (x : Vector Byte 32) : RunInv { s with h := x } :=
  ⟨h.params, h.seq, h.cursor, h.len, h.fill, h.errFault, h.errRaised, h.padWf, h.padRange, h.inputWf, h.inputRange⟩

/-- The position after a chunk that fits (44_chacha_fill.md R202). -/
theorem chunkNext_progress {s : State} (h : RunInv s) (hst : s.stage = .cfChunk)
    (hfit : s.iNat * s.chunkCur.toNat + s.chunkCur.toNat ≤ memBytes s.ver) (x : Vector Byte 32) :
    Progress s (.next (({ s with h := x } : State).chunkFill (s.iNat * s.chunkCur.toNat) s.chunkCur.toNat).chunkNext) := by
  have hb : s.busy = true := by simp [State.busy, hst]
  obtain ⟨hver, hk, -⟩ : (s.ver = 2 ∨ s.ver = 3) ∧ s.iNat < s.numChunks.toNat ∧ s.j = 0 := h.seq_at hst
  obtain ⟨hcount, hoff, hleft, hexact⟩ := h.fill hst
  obtain ⟨hend, hleft', hexact'⟩ := chunk_share hk hoff hleft hexact
  rw [← State.toNat_chunkCur hk hoff] at hend hleft' hexact'
  have hmem := memBytes_le s.ver
  have hpad := State.chunkFill_within (s := { s with h := x }) h.pad_within (Nat.le_trans hfit hmem)
  obtain ⟨pad, nonce, heq⟩ := State.chunkFill_eq { s with h := x } (s.iNat * s.chunkCur.toNat) s.chunkCur.toNat
  rw [heq] at hpad ⊢
  have hi := State.toNat_succ (x := s.i) hk s.numChunks.isLt
  have hoff' : (s.outOff + BitVec.ofNat 64 s.chunkCur.toNat).toNat = s.outOff.toNat + s.chunkCur.toNat := by
    rw [BitVec.toNat_add, BitVec.toNat_ofNat]
    omega
  simp only [State.chunkNext]
  split
  · rename_i hlt
    refine h.progress_goto hb ⟨rfl, rfl, rfl, rfl, rfl, rfl⟩ rfl hpad (by decide)
      ⟨hver, hi.trans_lt hlt, rfl⟩ trivial fun _ => ⟨hcount, ?_, ?_, fun hd => ?_⟩
    · exact hoff'.trans_le hend
    · show memBytes s.ver * (s.numChunks.toNat - (s.i + 1).toNat) ≤
        s.numChunks.toNat * (memBytes s.ver - (s.outOff + BitVec.ofNat 64 s.chunkCur.toNat).toNat)
      rw [hoff', hi]
      exact hleft'
    · show (s.outOff + BitVec.ofNat 64 s.chunkCur.toNat).toNat = (s.i + 1).toNat * (memBytes s.ver / s.numChunks.toNat)
      rw [hoff', hi]
      exact hexact' hd
  · exact h.progress_goto hb ⟨rfl, rfl, rfl, rfl, rfl, rfl⟩ rfl hpad (by decide)
      ⟨hver, rfl, rfl⟩ trivial (State.fillOk_goto (by decide))

theorem exec_cfchunk_progress {s : State} (h : RunInv s) (hst : s.stage = .cfChunk) : Progress s (exec .cfchunk s) := by
  obtain ⟨hver, hk, -⟩ : (s.ver = 2 ∨ s.ver = 3) ∧ s.iNat < s.numChunks.toNat ∧ s.j = 0 := h.seq_at hst
  simp only [exec, execCfchunk, if_pos (mixVer_of_or hver), if_pos hk]
  split
  · exact ⟨_, rfl, ⟨rfl, rfl, rfl, rfl, rfl, rfl⟩, (h.set_h _).raise (by decide) (by decide)⟩
  · rename_i hfit
    split
    · exact ⟨_, rfl, ⟨rfl, rfl, rfl, rfl, rfl, rfl⟩, (h.set_h _).raise (by decide) (by decide)⟩
    · exact chunkNext_progress h hst (Nat.le_of_not_lt hfit) _

/-! ### The v2 and v3 mix -/

theorem exec_mxsetup_progress {s : State} (h : RunInv s) (hst : s.stage = .mxSetup) : Progress s (exec .mxsetup s) := by
  obtain ⟨hver, -, -⟩ : (s.ver = 2 ∨ s.ver = 3) ∧ s.i = 0 ∧ s.j = 0 := h.seq_at hst
  have hb : s.busy = true := by simp [State.busy, hst]
  simp only [exec, execMxsetup, if_pos (mixVer_of_or hver)]
  rcases hver with hver | hver
  · rw [if_pos hver]
    exact h.progress_goto hb ⟨rfl, rfl, rfl, rfl, rfl, rfl⟩ rfl h.pad_within (by decide)
      ⟨hver, Nat.zero_le _, rfl⟩ rfl (State.fillOk_goto (by decide))
  · rw [if_neg (by rw [hver]; decide)]
    exact h.progress_goto hb ⟨rfl, rfl, rfl, rfl, rfl, rfl⟩ rfl h.pad_within (by decide)
      ⟨hver, Nat.zero_le _, rfl⟩ rfl (State.fillOk_goto (by decide))

theorem exec_head2_progress {s : State} (h : RunInv s) (hst : s.stage = .v2Head) : Progress s (exec .head2 s) := by
  obtain ⟨hver, hi, -⟩ : s.ver = 2 ∧ s.iNat ≤ 2 ∧ s.j = 0 := h.seq_at hst
  have hcur : s.r.toNat = (27456 * s.iNat) % 54912 := h.cursor_at hst
  exact h.progress_goto (by simp [State.busy, hst]) ⟨rfl, rfl, rfl, rfl, rfl, rfl⟩ rfl h.pad_within (by decide)
    ⟨hver, hi, Nat.zero_le _⟩ hcur (State.fillOk_goto (by decide))

/-- The step of `STEP2` with any entry (45_v2_mix.md R222): the cursor counts it (10_state.md R33). -/
theorem v2Step_progress {s : State} (entry : MixOperands → Word) (h : RunInv s) (hst : s.stage = .v2Step) :
    Progress s (v2Step entry s) := by
  obtain ⟨hver, hi, hj⟩ : s.ver = 2 ∧ s.iNat ≤ 2 ∧ s.jNat ≤ 27455 := h.seq_at hst
  have hcur : s.r.toNat = (27456 * s.iNat + s.jNat) % 54912 := h.cursor_at hst
  have hb : s.busy = true := by simp [State.busy, hst]
  have hs := State.toNat_succ (x := s.j) (n := 27456) (Nat.lt_succ_of_le hj) (by omega)
  have hr : s.r.toNat < 54912 := by omega
  have hnext : (nextCursor words2 s.r).toNat = (s.r.toNat + 1) % 54912 :=
    toNat_nextCursor words2 (by decide) (by decide) s.r
  have hlow : 8 * (half2 - s.jNat - 1) + 8 ≤ 8 * 67968 := by rw [half2]; omega
  have hhigh : 8 * (half2 + s.jNat) + 8 ≤ 8 * 67968 := by rw [half2]; omega
  simp only [v2Step]
  rw [if_pos ⟨Nat.lt_succ_of_le hj, hr⟩]
  split
  · rename_i hlt
    refine h.progress_goto hb ⟨rfl, rfl, rfl, rfl, rfl, rfl⟩ rfl
      ((h.pad_within.setPad64 hlow _).setPad64 hhigh _) (by decide)
      ⟨hver, hi, hs.trans_le hlt⟩ ?_ (State.fillOk_goto (by decide))
    show (nextCursor words2 s.r).toNat = (27456 * s.iNat + (s.j + 1).toNat) % 54912
    rw [hnext, hs, hcur, Nat.mod_add_mod, Nat.add_assoc, State.jNat]
  · rename_i hlt
    refine h.progress_goto hb ⟨rfl, rfl, rfl, rfl, rfl, rfl⟩ rfl
      ((h.pad_within.setPad64 hlow _).setPad64 hhigh _) (by decide)
      ⟨hver, hi, rfl⟩ ?_ (State.fillOk_goto (by decide))
    have hlast : s.jNat = 27455 := Nat.le_antisymm hj (Nat.le_of_not_lt hlt)
    show (nextCursor words2 s.r).toNat = (27456 * (s.iNat + 1)) % 54912
    rw [hnext, hcur, Nat.mod_add_mod, hlast, Nat.add_assoc, Nat.mul_succ]

theorem exec_tail2_progress {s : State} (h : RunInv s) (hst : s.stage = .v2Tail) : Progress s (exec .tail2 s) := by
  obtain ⟨hver, hi, -⟩ : s.ver = 2 ∧ s.iNat ≤ 2 ∧ s.j = 0 := h.seq_at hst
  have hcur : s.r.toNat = (27456 * (s.iNat + 1)) % 54912 := h.cursor_at hst
  have hb : s.busy = true := by simp [State.busy, hst]
  have hs := State.toNat_succ (x := s.i) (n := 3) (Nat.lt_succ_of_le hi) (by omega)
  simp only [exec, execTail2]
  split
  · rename_i hlt
    refine h.progress_goto hb ⟨rfl, rfl, rfl, rfl, rfl, rfl⟩ rfl h.pad_within (by decide)
      ⟨hver, hs.trans_le hlt, rfl⟩ ?_ (State.fillOk_goto (by decide))
    show s.r.toNat = (27456 * (s.i + 1).toNat) % 54912
    rw [hs]
    exact hcur
  · exact h.progress_goto hb ⟨rfl, rfl, rfl, rfl, rfl, rfl⟩ rfl h.pad_within (by decide)
      ⟨.inl hver, rfl, rfl⟩ trivial (State.fillOk_goto (by decide))

theorem exec_head3_progress {s : State} (h : RunInv s) (hst : s.stage = .v3Head) : Progress s (exec .head3 s) := by
  obtain ⟨hver, hi, -⟩ : s.ver = 3 ∧ s.iNat ≤ 1 ∧ s.j = 0 := h.seq_at hst
  have hcur : s.r.toNat = (33984 * s.iNat) % 67968 := h.cursor_at hst
  exact h.progress_goto (by simp [State.busy, hst]) ⟨rfl, rfl, rfl, rfl, rfl, rfl⟩ rfl h.pad_within (by decide)
    ⟨hver, hi, Nat.zero_le _⟩ hcur (State.fillOk_goto (by decide))

/-- The step of `STEP3` with any entry (46_v3_mix.md R251): the cursor counts it (10_state.md R33). -/
theorem v3Step_progress {s : State} (entry : MixOperands → Word) (h : RunInv s) (hst : s.stage = .v3Step) :
    Progress s (v3Step entry s) := by
  obtain ⟨hver, hi, hj⟩ : s.ver = 3 ∧ s.iNat ≤ 1 ∧ s.jNat ≤ 33983 := h.seq_at hst
  have hcur : s.r.toNat = (33984 * s.iNat + s.jNat) % 67968 := h.cursor_at hst
  have hb : s.busy = true := by simp [State.busy, hst]
  have hs := State.toNat_succ (x := s.j) (n := 33984) (Nat.lt_succ_of_le hj) (by omega)
  have hr : s.r.toNat < 67968 := by omega
  have hnext : (nextCursor words3 s.r).toNat = (s.r.toNat + 1) % 67968 :=
    toNat_nextCursor words3 (by decide) (by decide) s.r
  have hwrite : ∀ t result : Word, 8 * v3IndexA t result + 8 ≤ 8 * 67968 ∧ 8 * (half3 + v3IndexB t result) + 8 ≤ 8 * 67968 :=
    fun t result => by
      have := v3IndexA_lt t result
      have := v3IndexB_lt t result
      rw [half3]
      omega
  simp only [v3Step]
  rw [if_pos (show s.r.toNat < words3 from hr)]
  split
  · rename_i hlt
    refine h.progress_goto hb ⟨rfl, rfl, rfl, rfl, rfl, rfl⟩ rfl
      ((h.pad_within.setPad64 (hwrite _ _).1 _).setPad64 (hwrite _ _).2 _) (by decide)
      ⟨hver, hi, hs.trans_le hlt⟩ ?_ (State.fillOk_goto (by decide))
    show (nextCursor words3 s.r).toNat = (33984 * s.iNat + (s.j + 1).toNat) % 67968
    rw [hnext, hs, hcur, Nat.mod_add_mod, Nat.add_assoc, State.jNat]
  · rename_i hlt
    refine h.progress_goto hb ⟨rfl, rfl, rfl, rfl, rfl, rfl⟩ rfl
      ((h.pad_within.setPad64 (hwrite _ _).1 _).setPad64 (hwrite _ _).2 _) (by decide)
      ⟨hver, hi, rfl⟩ ?_ (State.fillOk_goto (by decide))
    have hlast : s.jNat = 33983 := Nat.le_antisymm hj (Nat.le_of_not_lt hlt)
    show (nextCursor words3 s.r).toNat = (33984 * (s.iNat + 1)) % 67968
    rw [hnext, hcur, Nat.mod_add_mod, hlast, Nat.add_assoc, Nat.mul_succ]

theorem exec_tail3_progress {s : State} (h : RunInv s) (hst : s.stage = .v3Tail) : Progress s (exec .tail3 s) := by
  obtain ⟨hver, hi, -⟩ : s.ver = 3 ∧ s.iNat ≤ 1 ∧ s.j = 0 := h.seq_at hst
  have hcur : s.r.toNat = (33984 * (s.iNat + 1)) % 67968 := h.cursor_at hst
  have hb : s.busy = true := by simp [State.busy, hst]
  have hs := State.toNat_succ (x := s.i) (n := 2) (Nat.lt_succ_of_le hi) (by omega)
  simp only [exec, execTail3]
  split
  · rename_i hlt
    refine h.progress_goto hb ⟨rfl, rfl, rfl, rfl, rfl, rfl⟩ rfl h.pad_within (by decide)
      ⟨hver, hs.trans_le hlt, rfl⟩ ?_ (State.fillOk_goto (by decide))
    show s.r.toNat = (33984 * (s.i + 1).toNat) % 67968
    rw [hs]
    exact hcur
  · exact h.progress_goto hb ⟨rfl, rfl, rfl, rfl, rfl, rfl⟩ rfl h.pad_within (by decide)
      ⟨.inr hver, rfl, rfl⟩ trivial (State.fillOk_goto (by decide))

theorem exec_fin_progress {s : State} (h : RunInv s) (hst : s.stage = .fin) : Progress s (exec .fin s) := by
  obtain ⟨hver, -, -⟩ : (s.ver = 2 ∨ s.ver = 3) ∧ s.i = 0 ∧ s.j = 0 := h.seq_at hst
  simp only [exec, execFin, if_pos (mixVer_of_or hver)]
  exact h.progress_goto (by simp [State.busy, hst]) ⟨rfl, rfl, rfl, rfl, rfl, rfl⟩ rfl h.pad_within (by decide)
    ⟨rfl, rfl⟩ trivial (State.fillOk_goto (by decide))

/-! ### A step of the sequencer -/

/-- The invariant does not speak of the host's list. -/
theorem RunInv.takeInput {s : State} (h : RunInv s) : RunInv s.takeInput :=
  ⟨h.params, h.seq, h.cursor, h.len, h.fill, h.errFault, h.errRaised, h.padWf, h.padRange, h.inputWf, h.inputRange⟩

/-- `SEQ.J` in `S_V1_FILL` (10_state.md R25). -/
theorem RunInv.j_of_v1Fill {s : State} (h : RunInv s) (hst : s.stage = .v1Fill) : s.j = 0 := by
  obtain ⟨-, -, hj⟩ : s.ver = 1 ∧ s.iNat ≤ 1310 ∧ s.j = 0 := h.seq_at hst
  exact hj

/-- Where the sequencer moves in a run it executes the operation of its stage code (10_state.md R24, 30_encoding.md R96). -/
theorem RunInv.step_of_sequencer {s : State} (h : RunInv s) (hb : s.busy = true) (hsel : s.nextSelector = s.seqSelector)
    {c : Instr} (hc : decodeSeq (stageCode s.stage) = .ok c) : step s = exec c s.takeInput := by
  have hj : ¬ (s.stage = .v1Fill ∧ s.j ≠ 0) := fun ⟨hst, hne⟩ => hne (h.j_of_v1Fill hst)
  have hseqsel : s.nextSelector = some (.seq (stageCode s.stage)) := by
    rw [hsel, State.seqSelector, if_neg (by simp [hb]), if_neg hj]
  simp only [step, State.fetch, hseqsel, decode, hc]

/-- A sequencer at rest executes nothing (10_state.md R25). -/
theorem step_of_rest {s : State} (hb : s.busy = false) (hsel : s.nextSelector = s.seqSelector) :
    step s = .next s.noOperation := by
  simp only [step, State.fetch, hsel, State.seqSelector, if_pos hb]

/-- The operation of every busy stage answers a next state with the invariant. -/
theorem RunInv.operation_progress {s : State} (h : RunInv s) (hb : s.busy = true) :
    ∃ c, decodeSeq (stageCode s.stage) = .ok c ∧ Progress s (exec c s) := by
  cases hst : s.stage with
  | idle | done | fault => simp [State.busy, hst] at hb
  | v1Absorb => exact ⟨.absorb, rfl, exec_absorb_progress h hst⟩
  | v1Fill => exact ⟨.kfill, rfl, exec_kfill_progress h hst⟩
  | v1Slotld => exact ⟨.slotld, rfl, exec_slotld_progress h hst⟩
  | v1Perm => exact ⟨.perm, rfl, exec_perm_progress h hst⟩
  | v1Slotwb => exact ⟨.slotwb, rfl, exec_slotwb_progress h hst⟩
  | v1Prime => exact ⟨.prime, rfl, exec_prime_progress h hst⟩
  | v1Head => exact ⟨.head1, rfl, exec_head1_progress h hst⟩
  | v1Br => exact ⟨.br1, rfl, v1Step_progress _ h hst⟩
  | v1Tail => exact ⟨.tail1, rfl, exec_tail1_progress h hst⟩
  | cfZero => exact ⟨.cfzero, rfl, exec_cfzero_progress h hst⟩
  | cfSeed => exact ⟨.cfseed, rfl, exec_cfseed_progress h hst⟩
  | cfChunk => exact ⟨.cfchunk, rfl, exec_cfchunk_progress h hst⟩
  | mxSetup => exact ⟨.mxsetup, rfl, exec_mxsetup_progress h hst⟩
  | v2Head => exact ⟨.head2, rfl, exec_head2_progress h hst⟩
  | v2Step => exact ⟨.step2, rfl, v2Step_progress _ h hst⟩
  | v2Tail => exact ⟨.tail2, rfl, exec_tail2_progress h hst⟩
  | v3Head => exact ⟨.head3, rfl, exec_head3_progress h hst⟩
  | v3Step => exact ⟨.step3, rfl, v3Step_progress _ h hst⟩
  | v3Tail => exact ⟨.tail3, rfl, exec_tail3_progress h hst⟩
  | fin => exact ⟨.fin, rfl, exec_fin_progress h hst⟩

/-- A step in which the sequencer moves, in a run. -/
theorem RunInv.step_progress {s : State} (h : RunInv s) (hb : s.busy = true) (hsel : s.nextSelector = s.seqSelector) :
    Progress s.takeInput (step s) := by
  obtain ⟨c, hc, hp⟩ := h.takeInput.operation_progress hb
  rw [h.step_of_sequencer hb hsel hc]
  exact hp

/-! ### A step of the host -/

theorem RunInv.hostRead {s : State} (h : RunInv s) (v : Word) : RunInv (s.hostRead v) :=
  ⟨h.params, h.seq, h.cursor, h.len, h.fill, h.errFault, h.errRaised, h.padWf, h.padRange, h.inputWf, h.inputRange⟩

theorem RunInv.freeRead {s : State} (h : RunInv s) (n : Nat) : RunInv (s.freeRead n) :=
  ⟨h.params, h.seq, h.cursor, h.len, h.fill, h.errFault, h.errRaised, h.padWf, h.padRange, h.inputWf, h.inputRange⟩

/-- At rest the host may change its registers and both memories: the invariant asks nothing of a resting sequencer but its
position. -/
theorem RunInv.of_host_write {s t : State} (h : RunInv s) (hb : s.busy = false) (hst : t.stage = s.stage) (hi : t.i = s.i)
    (hj : t.j = s.j) (herr : t.err = s.err) (hpar : t.params = s.params) (hpad : t.pad.Within (8 * 67968))
    (hin : t.input.Within s.params.inCap) : RunInv t := by
  have hrest : s.stage = .idle ∨ s.stage = .done ∨ s.stage = .fault := by
    cases hs : s.stage <;> simp_all [State.busy]
  have hpos : s.i = 0 ∧ s.j = 0 := by
    have hseq := h.seq
    rcases hrest with hs | hs | hs <;> simpa only [State.SeqOk, hs] using hseq
  have hbt : t.busy = false := by rw [State.busy, hst]; exact hb
  exact {
    params := hpar ▸ h.params
    seq := by rcases hrest with hs | hs | hs <;> simpa only [State.SeqOk, hst, hs, hi, hj] using hpos
    cursor := by rcases hrest with hs | hs | hs <;> simp only [State.CursorOk, hst, hs]
    len := fun hbusy => by simp [hbt] at hbusy
    fill := State.fillOk_of_ne (by rcases hrest with hs | hs | hs <;> simp [hst, hs])
    errFault := by rw [herr, hst]; exact h.errFault
    errRaised := by rw [herr]; exact h.errRaised
    padWf := hpad.1
    padRange := hpad.2
    inputWf := hin.1
    inputRange := by rw [hpar]; exact hin.2 }

/-- A write that is refused while `BUSY` (60_exceptions.md R336) keeps the invariant if it does so at rest. -/
theorem RunInv.hostWrite {s : State} (h : RunInv s) {f : State → State} (hf : s.busy = false → RunInv (f s)) :
    RunInv (s.hostWrite f) := by
  cases hb : s.busy with
  | true => rwa [State.hostWrite_of_busy hb]
  | false => rw [State.hostWrite_of_rest hb]; exact hf hb

theorem RunInv.setInBytes {s : State} (h : RunInv s) (hb : s.busy = false) (k : Nat) (bs : List Byte) :
    RunInv (s.setInBytes k bs) :=
  h.of_host_write hb rfl rfl rfl rfl rfl h.pad_within (h.input_within.setInBytes k bs)

/-- A run begins at the first operation of a version with the checked length (47_finalize_host.md R297). -/
theorem RunInv.goto_begin {s : State} (h : RunInv s) (hf : s.startFault = .none) {st : Stage} (hfault : st ≠ .fault)
    (hchunk : st ≠ .cfChunk) (hseq : ({ s with err := .none }.goto st 0 0).SeqOk)
    (hcur : ({ s with err := .none }.goto st 0 0).CursorOk) : RunInv ({ s with err := .none }.goto st 0 0) where
  params := h.params
  seq := hseq
  cursor := hcur
  len := fun _ => (State.checked_of_startFault hf).2
  fill := State.fillOk_goto hchunk
  errFault := ⟨fun he => absurd rfl he, fun hs => absurd hs hfault⟩
  errRaised := ⟨(nomatch ·), (nomatch ·)⟩
  padWf := h.padWf
  padRange := h.padRange
  inputWf := h.inputWf
  inputRange := h.inputRange

/-- `START` begins a run, or raises the fault of a check (47_finalize_host.md R297). -/
theorem RunInv.startRun {s : State} (h : RunInv s) : RunInv s.startRun := by
  rcases s.startFault_cases with hf | hf | hf
  · have hver := (State.checked_of_startFault hf).1
    rw [State.startRun_of_accepted hf]
    split
    · rename_i h1
      exact h.goto_begin hf (by decide) (by decide) ⟨h1, rfl, rfl⟩ trivial
    · rename_i h1
      have hver' : s.ver = 2 ∨ s.ver = 3 := by bv_omega
      exact h.goto_begin hf (by decide) (by decide) ⟨hver', rfl, rfl⟩ trivial
  · rw [State.startRun_of_startFault hf (by decide)]
    exact h.raise (by decide) (by decide)
  · rw [State.startRun_of_startFault hf (by decide)]
    exact h.raise (by decide) (by decide)

/-- The reset (70_reset_and_hazards.md R350, R351). -/
theorem RunInv.applyReset {s : State} (h : RunInv s) : RunInv s.applyReset where
  params := h.params
  seq := ⟨rfl, rfl⟩
  cursor := trivial
  len := fun hb => nomatch hb
  fill := fun hs => nomatch hs
  errFault := ⟨fun he => absurd rfl he, fun hs => nomatch hs⟩
  errRaised := ⟨(nomatch ·), (nomatch ·)⟩
  padWf := h.padWf
  padRange := h.padRange
  inputWf := Memory.wf_nil
  inputRange := (Memory.within_nil _).2

/-- A host access that is no command writes at most the model's own record of what was read (log 18). -/
theorem RunInv.otherAccess {s : State} (h : RunInv s) (a : HostAccess) : RunInv (s.otherAccess a) := by
  cases a with
  | write8 | write32 | padWrite => exact h
  | padRead => exact h.freeRead 64
  | read8 off =>
    simp only [State.otherAccess]
    split
    · exact h.hostRead _
    · exact h.freeRead 8
  | read32 off =>
    simp only [State.otherAccess]
    split
    · exact h.hostRead 0
    split
    · exact h.freeRead 32
    split
    · exact h.hostRead _
    · exact h.freeRead 32

/-- A host access selects no operation but the host commands (30_encoding.md R97). -/
theorem decodeHost_isHostCommand {a : HostAccess} {c : Instr} (h : decodeHost a = .ok c) : c.isHostCommand = true := by
  cases a
  all_goals
    simp only [decodeHost] at h
    repeat' split at h
  all_goals cases h
  all_goals rfl

theorem RunInv.exec_rddigest {s t : State} (h : RunInv s) (d : DigestRef) (he : exec (.rddigest d) s = .next t) :
    RunInv t := by
  cases d
  all_goals
    simp only [exec, execRddigest, Host.Outcome.next.injEq] at he
    subst he
    split
    · exact h.hostRead _
    · exact h.freeRead _

theorem RunInv.exec_padrd {s t : State} (h : RunInv s) (k : BitVec 32) (he : exec (.padrd k) s = .next t) : RunInv t := by
  simp only [exec, execPadrd] at he
  split at he
  · cases he; exact h.freeRead 64
  split at he
  · cases he; exact h.hostRead _
  · cases he

/-- The scratchpad port writes inside the attached memory (47_finalize_host.md R304, log 14). -/
theorem RunInv.exec_padwr {s t : State} (h : RunInv s) (k : BitVec 32) (w : Word) (he : exec (.padwr k w) s = .next t) :
    RunInv t := by
  simp only [exec, execPadwr] at he
  split at he
  · cases he; exact h
  split at he
  · rename_i hb hk
    cases he
    have hwords := hostPadWords_le s.ver
    exact h.of_host_write (by simpa using hb) rfl rfl rfl rfl rfl (h.pad_within.setPad64 (by omega) w) h.input_within
  · cases he

/-- Every host command keeps the invariant. -/
theorem RunInv.exec_command {s t : State} {c : Instr} (h : RunInv s) (hc : c.isHostCommand = true)
    (he : exec c s = .next t) : RunInv t := by
  cases c with
  | start => cases he; exact h.hostWrite fun _ => h.startRun
  | wrmode ver padded =>
    cases he
    exact h.hostWrite fun hb => h.of_host_write hb rfl rfl rfl rfl rfl h.pad_within h.input_within
  | wrlen n =>
    cases he
    exact h.hostWrite fun hb => h.of_host_write hb rfl rfl rfl rfl rfl h.pad_within h.input_within
  | wrin d =>
    cases d with
    | byte k b => cases he; exact h.hostWrite fun hb => h.setInBytes hb _ _
    | word w v => cases he; exact h.hostWrite fun hb => h.setInBytes hb _ _
  | rdstatus => cases he; exact h.hostRead _
  | rddigest d => exact h.exec_rddigest d he
  | padrd k => exact h.exec_padrd k he
  | padwr k w => exact h.exec_padwr k w he
  | _ => cases hc

/-- A step in which the host makes an access. -/
theorem RunInv.step_access {s t : State} {a : HostAccess} {rest : List Input} (h : RunInv s)
    (hin : s.inputs = .access a :: rest) (ht : step s = .next t) : RunInv t := by
  cases hd : decodeHost a with
  | ok c =>
    rw [step_of_command hin hd] at ht
    exact h.takeInput.exec_command (decodeHost_isHostCommand hd) ht
  | error e =>
    rw [step_of_noCommand hin hd] at ht
    cases ht
    exact h.takeInput.otherAccess a

/-- A step in which the sequencer moves, or rests. -/
theorem RunInv.step_sequencer {s t : State} (h : RunInv s) (hsel : s.nextSelector = s.seqSelector)
    (hrest : RunInv s.noOperation) (ht : step s = .next t) : RunInv t := by
  cases hb : s.busy with
  | true =>
    obtain ⟨u, hu, -, hinv⟩ := h.step_progress hb hsel
    rw [hu] at ht
    cases ht
    exact hinv
  | false =>
    rw [step_of_rest hb hsel] at ht
    cases ht
    exact hrest

/-- Settles O7: one case for each move of the host's list (log 6). -/
theorem stepKeepsInv : Obligations.StepKeepsInv := by
  intro s t h ht
  cases hin : s.inputs with
  | nil => exact h.step_sequencer (by simp [State.nextSelector, hin]) (by simpa [State.noOperation, hin] using h) ht
  | cons x rest =>
    cases x with
    | access a => exact h.step_access hin ht
    | tick =>
      exact h.step_sequencer (by simp [State.nextSelector, hin])
        (by simpa [State.noOperation, hin] using h.takeInput) ht
    | reset =>
      have hstep : step s = .next s.takeInput.applyReset := by
        simp only [step, State.fetch, State.nextSelector, State.noOperation, hin]
      rw [hstep] at ht
      cases ht
      exact h.takeInput.applyReset

/-! ### Scratchpads and inputs that agree -/

section
variable {n : Nat} {s t : State}

theorem PadAgree.mono {m : Nat} (h : PadAgree n s t) (hm : m ≤ n) : PadAgree m s t :=
  fun a ha => h a (Nat.lt_of_lt_of_le ha hm)

theorem PadAgree.pad64 (h : PadAgree n s t) {k : Nat} (hk : 8 * k + 8 ≤ n) : s.pad64 k = t.pad64 k :=
  State.pad64_congr fun _ _ => h _ (by omega)

theorem PadAgree.pad32 (h : PadAgree n s t) {k : Nat} (hk : 4 * k + 4 ≤ n) : s.pad32 k = t.pad32 k :=
  State.pad32_congr fun _ _ => h _ (by omega)

theorem PadAgree.padBytes (h : PadAgree n s t) {a l : Nat} (hl : a + l ≤ n) : s.padBytes a l = t.padBytes a l :=
  Memory.readBytes_congr fun _ _ => h _ (by omega)

/-- The same word written at the same place. -/
theorem PadAgree.setPad64 (h : PadAgree n s t) (k : Nat) {w x : Word} (hw : w = x) :
    PadAgree n (s.setPad64 k w) (t.setPad64 k x) := by
  intro a ha
  rw [State.read_setPad64, State.read_setPad64, h a ha, hw]

/-- A word written just behind the bytes that agree adds eight bytes to them. -/
theorem PadAgree.append (k : Nat) (h : PadAgree (8 * k) s t) {w x : Word} (hw : w = x) :
    PadAgree (8 * k + 8) (s.setPad64 k w) (t.setPad64 k x) := by
  intro a ha
  rw [State.read_setPad64, State.read_setPad64, hw]
  split
  · rfl
  · exact h a (by omega)

theorem PadAgree.setPadBytes (h : PadAgree n s t) (a : Nat) {bs cs : List Byte} (hb : bs = cs) :
    PadAgree n (s.setPadBytes a bs) (t.setPadBytes a cs) := by
  intro x hx
  rw [State.read_setPadBytes, State.read_setPadBytes, h x hx, hb]

theorem PadAgree.setPad32s (h : PadAgree n s t) (k : Nat) {f g : Nat → Half} (hf : f = g) (l : Nat) :
    PadAgree n (s.setPad32s k f l) (t.setPad32s k g l) := by
  subst hf
  induction l with
  | zero => exact h
  | succ l ih =>
    intro a ha
    have e : ∀ u : State, u.setPad32s k f (l + 1) = (u.setPad32s k f l).setPad32 (k + l) (f l) := fun u => by
      simp [State.setPad32s, List.range_succ]
    rw [e, e, State.read_setPad32, State.read_setPad32, ih a ha]

/-- Two scratchpads agree on what both have zeroed. -/
theorem padAgree_zeroPad (n : Nat) (s t : State) : PadAgree n (s.zeroPad n) (t.zeroPad n) := by
  intro a ha
  rw [State.read_zeroPad, State.read_zeroPad, if_pos ha, if_pos ha]

theorem InputAgree.inBytes (h : InputAgree s t) {a l : Nat} (hl : l ≤ s.len.toNat - a) :
    s.inBytes a l = t.inBytes a l :=
  Memory.readBytes_congr fun k _ => h.2 (a + k) (by omega)

end

/-! ### What two runs at one position agree on, by stage -/

/-- The part of `Live` that every stage has: the parameters, the position, the version and `ERR`. -/
structure SamePos (s t : State) : Prop where
  params : s.params = t.params
  stage : s.stage = t.stage
  i : s.i = t.i
  j : s.j = t.j
  ver : s.ver = t.ver
  err : s.err = t.err

theorem samePos_iff {s t : State} : SamePos s t ↔
    s.params = t.params ∧ s.stage = t.stage ∧ s.i = t.i ∧ s.j = t.j ∧ s.ver = t.ver ∧ s.err = t.err :=
  ⟨fun h => ⟨h.params, h.stage, h.i, h.j, h.ver, h.err⟩, fun ⟨hp, hs, hi, hj, hv, he⟩ => ⟨hp, hs, hi, hj, hv, he⟩⟩

theorem Live.samePos {s t : State} (h : Live s t) : SamePos s t := by
  obtain ⟨hp, hs, hi, hj, hv, he, -⟩ := h
  exact ⟨hp, hs, hi, hj, hv, he⟩

section
variable {s t : State}

theorem live_fault (h : s.stage = .fault) : Live s t ↔ SamePos s t := by
  simp only [Live, samePos_iff, h, and_true]

theorem live_v1Absorb (h : s.stage = .v1Absorb) : Live s t ↔ SamePos s t ∧ InputAgree s t := by
  simp only [Live, samePos_iff, h, and_assoc]

theorem live_v1Fill (h : s.stage = .v1Fill) :
    Live s t ↔ SamePos s t ∧ s.kstate = t.kstate ∧ PadAgree (200 * s.iNat) s t := by
  simp only [Live, samePos_iff, h, and_assoc]

theorem live_v1Slotld (h : s.stage = .v1Slotld) : Live s t ↔ SamePos s t ∧ PadAgree (8 * words1) s t := by
  simp only [Live, samePos_iff, h, and_assoc]

theorem live_v1Prime (h : s.stage = .v1Prime) : Live s t ↔ SamePos s t ∧ PadAgree (8 * words1) s t := by
  simp only [Live, samePos_iff, h, and_assoc]

theorem live_v1Perm (h : s.stage = .v1Perm) :
    Live s t ↔ SamePos s t ∧ s.slots = t.slots ∧ PadAgree (8 * words1) s t := by
  simp only [Live, samePos_iff, h, and_assoc]

theorem live_v1Slotwb (h : s.stage = .v1Slotwb) :
    Live s t ↔ SamePos s t ∧ s.slots = t.slots ∧ PadAgree (8 * words1) s t := by
  simp only [Live, samePos_iff, h, and_assoc]

/-- The bytes of `DIGEST` that the iterations of v1 before `i` have emitted are the same (43_v1_mix.md R189). -/
def DigestAgree (i : Nat) (s t : State) : Prop := ∀ k : Fin 32, 5000 ≤ k.val / 8 + i → s.digest.get k = t.digest.get k

theorem live_v1Head (h : s.stage = .v1Head) : Live s t ↔
    SamePos s t ∧ s.bufA = t.bufA ∧ s.bufB = t.bufB ∧ PadAgree (8 * words1) s t ∧ DigestAgree s.iNat s t := by
  simp only [Live, samePos_iff, h, and_assoc, DigestAgree]

theorem live_v1Br (h : s.stage = .v1Br) : Live s t ↔
    SamePos s t ∧ s.result = t.result ∧ s.bufA = t.bufA ∧ s.bufB = t.bufB ∧ PadAgree (8 * words1) s t ∧
      DigestAgree s.iNat s t := by
  simp only [Live, samePos_iff, h, and_assoc, DigestAgree]

theorem live_v1Tail (h : s.stage = .v1Tail) : Live s t ↔
    SamePos s t ∧ s.result = t.result ∧ s.bufA = t.bufA ∧ s.bufB = t.bufB ∧ PadAgree (8 * words1) s t ∧
      DigestAgree s.iNat s t := by
  simp only [Live, samePos_iff, h, and_assoc, DigestAgree]

theorem live_cfZero (h : s.stage = .cfZero) : Live s t ↔ SamePos s t ∧ InputAgree s t := by
  simp only [Live, samePos_iff, h, and_assoc]

theorem live_cfSeed (h : s.stage = .cfSeed) :
    Live s t ↔ SamePos s t ∧ InputAgree s t ∧ PadAgree (memBytes s.ver) s t := by
  simp only [Live, samePos_iff, h, and_assoc]

theorem live_cfChunk (h : s.stage = .cfChunk) : Live s t ↔
    SamePos s t ∧ InputAgree s t ∧ s.h = t.h ∧ s.nonce = t.nonce ∧ s.outOff = t.outOff ∧ s.numChunks = t.numChunks ∧
      PadAgree (memBytes s.ver) s t := by
  simp only [Live, samePos_iff, h, and_assoc]

theorem live_mxSetup (h : s.stage = .mxSetup) : Live s t ↔ SamePos s t ∧ PadAgree (memBytes s.ver) s t := by
  simp only [Live, samePos_iff, h, and_assoc]

theorem live_fin (h : s.stage = .fin) : Live s t ↔ SamePos s t ∧ PadAgree (memBytes s.ver) s t := by
  simp only [Live, samePos_iff, h, and_assoc]

theorem live_v2Head (h : s.stage = .v2Head) : Live s t ↔
    SamePos s t ∧ s.addrA = t.addrA ∧ s.addrB = t.addrB ∧ s.r = t.r ∧ PadAgree (8 * words2) s t := by
  simp only [Live, samePos_iff, h, and_assoc]

theorem live_v2Step (h : s.stage = .v2Step) :
    Live s t ↔ SamePos s t ∧ s.result = t.result ∧ s.r = t.r ∧ PadAgree (8 * words2) s t := by
  simp only [Live, samePos_iff, h, and_assoc]

theorem live_v2Tail (h : s.stage = .v2Tail) :
    Live s t ↔ SamePos s t ∧ s.result = t.result ∧ s.r = t.r ∧ PadAgree (8 * words2) s t := by
  simp only [Live, samePos_iff, h, and_assoc]

theorem live_v3Head (h : s.stage = .v3Head) : Live s t ↔
    SamePos s t ∧ s.addrA = t.addrA ∧ s.addrB = t.addrB ∧ s.r = t.r ∧ PadAgree (8 * words3) s t := by
  simp only [Live, samePos_iff, h, and_assoc]

theorem live_v3Step (h : s.stage = .v3Step) : Live s t ↔
    SamePos s t ∧ s.result = t.result ∧ s.addrA = t.addrA ∧ s.addrB = t.addrB ∧ s.r = t.r ∧
      PadAgree (8 * words3) s t := by
  simp only [Live, samePos_iff, h, and_assoc]

theorem live_v3Tail (h : s.stage = .v3Tail) : Live s t ↔
    SamePos s t ∧ s.result = t.result ∧ s.addrA = t.addrA ∧ s.addrB = t.addrB ∧ s.r = t.r ∧
      PadAgree (8 * words3) s t := by
  simp only [Live, samePos_iff, h, and_assoc]

theorem live_done (h : s.stage = .done) :
    Live s t ↔ SamePos s t ∧ s.digest = t.digest ∧ PadAgree (memBytes s.ver) s t := by
  simp only [Live, samePos_iff, h, and_assoc]

end

/-! ### The operations on two runs at one position -/

/-- The next states of two runs, where there are such, agree on what is live. -/
def LiveAfter (r q : Result) : Prop := ∀ s t, r = .next s → q = .next t → Live s t

theorem LiveAfter.of_live {s t : State} (h : Live s t) : LiveAfter (.next s) (.next t) := by
  intro u v hu hv
  cases hu
  cases hv
  exact h

/-- An operation that both runs guard with the same test. -/
theorem LiveAfter.ite {p q : Prop} [Decidable p] [Decidable q] {r r' : Result} {e e' : Fault} (hpq : p ↔ q)
    (h : p → LiveAfter r r') : LiveAfter (if p then r else .fault e) (if q then r' else .fault e') := by
  by_cases hp : p
  · rw [if_pos hp, if_pos (hpq.1 hp)]
    exact h hp
  · rw [if_neg hp]
    exact fun _ _ hu => nomatch hu

section
variable {s t : State}

/-- The same jump of both runs. -/
theorem SamePos.goto (h : SamePos s t) (st : Stage) {i j i' j' : Half} (hi : i = i') (hj : j = j') :
    SamePos (s.goto st i j) (t.goto st i' j') :=
  ⟨h.params, rfl, hi, hj, h.ver, h.err⟩

theorem SamePos.iNat (h : SamePos s t) : s.iNat = t.iNat := congrArg BitVec.toNat h.i

theorem SamePos.jNat (h : SamePos s t) : s.jNat = t.jNat := congrArg BitVec.toNat h.j

theorem exec_absorb_live (hst : s.stage = .v1Absorb) (h : Live s t) : LiveAfter (exec .absorb s) (exec .absorb t) := by
  obtain ⟨hpos, hin⟩ := (live_v1Absorb hst).1 h
  have hbytes : s.inBytes 0 s.len.toNat = t.inBytes 0 t.len.toNat := by
    rw [← hin.1]
    exact hin.inBytes (Nat.le_refl _)
  refine .of_live ((live_v1Fill rfl).2 ⟨⟨hpos.params, rfl, rfl, rfl, hpos.ver, hpos.err⟩, ?_, fun a ha => ?_⟩)
  · simp only [State.goto_kstate, hbytes]
  · exact absurd ha (Nat.not_lt_zero a)

/-- What the passes of a fill row read (42_v1_fill_permute.md R151). -/
structure FillAgree (s t : State) : Prop where
  pos : SamePos s t
  kstate : s.kstate = t.kstate
  rand : s.rand = t.rand

/-- The position after a word of a fill row is a function of the position. -/
theorem SamePos.fillNext (h : SamePos s t) : SamePos s.fillNext t.fillNext := by
  simp only [State.fillNext, h.iNat, h.jNat]
  split
  · exact h.goto .v1Fill h.i (by rw [h.j])
  split
  · exact h.goto .v1Fill (by rw [h.i]) rfl
  · exact h.goto .v1Slotld rfl rfl

theorem State.fillNext_kstate (s : State) : s.fillNext.kstate = s.kstate := by rw [State.fillNext_eq]

theorem State.fillNext_rand (s : State) : s.fillNext.rand = s.rand := by rw [State.fillNext_eq]

theorem State.fillNext_pad (s : State) : s.fillNext.pad = s.pad := by rw [State.fillNext_eq]

/-- One pass extends the bytes that agree by a word. -/
theorem FillAgree.fillSelected (h : FillAgree s t) (hp : PadAgree (8 * (25 * s.iNat + s.jNat)) s t) :
    FillAgree s.fillSelected t.fillSelected ∧
      PadAgree (8 * (25 * s.iNat + s.jNat) + 8) s.fillSelected t.fillSelected := by
  have hword : ∀ op : Word → Word → Word,
      (regGet s.kstate s.jNat ^^^ s.rand) ^^^ op s.fillLeft s.fillRight =
        (regGet t.kstate t.jNat ^^^ t.rand) ^^^ op t.fillLeft t.fillRight := fun op => by
    rw [State.fillLeft, State.fillRight, State.fillLeft, State.fillRight, h.kstate, h.rand, h.pos.jNat]
  have hop : fillOp (fillSelect s.fillLeft s.fillRight) = fillOp (fillSelect t.fillLeft t.fillRight) := by
    rw [State.fillLeft, State.fillRight, State.fillLeft, State.fillRight, h.kstate, h.pos.jNat]
  simp only [State.fillSelected, State.fillPass, hop, hword]
  refine ⟨⟨SamePos.fillNext ⟨h.pos.params, h.pos.stage, h.pos.i, h.pos.j, h.pos.ver, h.pos.err⟩, ?_, ?_⟩, ?_⟩
  · rw [State.fillNext_kstate, State.fillNext_kstate]
    exact h.kstate
  · rw [State.fillNext_rand, State.fillNext_rand]
  · intro a ha
    rw [State.fillNext_pad, State.fillNext_pad, ← h.pos.iNat, ← h.pos.jNat]
    exact hp.append (25 * s.iNat + s.jNat) rfl a ha

/-- The passes from word `j` to the end of the row. -/
theorem FillAgree.fillRow (n : Nat) (h : FillAgree s t) (hi : s.iNat ≤ 1310) (hj : s.jNat + (n + 1) = rowLength s.iNat)
    (hp : PadAgree (8 * (25 * s.iNat + s.jNat)) s t) :
    FillAgree (iterate State.fillSelected (n + 1) s) (iterate State.fillSelected (n + 1) t) ∧
      PadAgree (8 * (25 * s.iNat + rowLength s.iNat)) (iterate State.fillSelected (n + 1) s)
        (iterate State.fillSelected (n + 1) t) := by
  induction n generalizing s t with
  | zero =>
    obtain ⟨hfill, hpad⟩ := h.fillSelected hp
    exact ⟨hfill, hpad.mono (by omega)⟩
  | succ n ih =>
    obtain ⟨hfill, hpad⟩ := h.fillSelected hp
    obtain ⟨-, -, -, -, hnext, -, -⟩ :=
      State.fillPass_spec s (fillOp (fillSelect s.fillLeft s.fillRight)) hi (by omega)
    obtain ⟨-, hi', hj'⟩ := hnext (by omega)
    have hi'' : s.fillSelected.iNat = s.iNat := congrArg BitVec.toNat hi'
    have hj'' : s.fillSelected.jNat = s.jNat + 1 := hj'
    have hrow := ih hfill (by rw [hi'']; exact hi) (by rw [hi'', hj'']; omega)
      (hpad.mono (by rw [hi'', hj'']; omega))
    rw [hi''] at hrow
    exact hrow

theorem exec_kfill_live (hinv : RunInv s) (hst : s.stage = .v1Fill) (h : Live s t) :
    LiveAfter (exec .kfill s) (exec .kfill t) := by
  obtain ⟨hpos, hk, hpad⟩ := (live_v1Fill hst).1 h
  obtain ⟨hver, hi, -⟩ : s.ver = 1 ∧ s.iNat ≤ 1310 ∧ s.j = 0 := hinv.seq_at hst
  obtain ⟨n, hn⟩ : ∃ n, rowLength s.iNat = n + 1 := ⟨rowLength s.iNat - 1, by rw [rowLength]; split <;> rfl⟩
  simp only [exec, execKfill, ← hpos.iNat, ← hk]
  refine .ite Iff.rfl fun _ => ?_
  rw [hn]
  have hrow := State.fillRow_done n (s := { s with kstate := keccakPerm s.kstate, rand := 0, j := 0 }) hi
    (by rw [Nat.add_comm]; exact hn.symm) hinv.pad_within
  obtain ⟨hfill, hpad'⟩ := FillAgree.fillRow n (s := { s with kstate := keccakPerm s.kstate, rand := 0, j := 0 })
    (t := { t with kstate := keccakPerm s.kstate, rand := 0, j := 0 })
    ⟨⟨hpos.params, hpos.stage, hpos.i, rfl, hpos.ver, hpos.err⟩, rfl, rfl⟩ hi
    (by rw [Nat.add_comm]; exact hn.symm)
    (hpad.mono (show 8 * (25 * s.iNat + 0) ≤ 200 * s.iNat by omega))
  generalize iterate State.fillSelected (n + 1) { s with kstate := keccakPerm s.kstate, rand := 0, j := 0 } = u
    at hrow hfill hpad' ⊢
  generalize iterate State.fillSelected (n + 1) { t with kstate := keccakPerm s.kstate, rand := 0, j := 0 } = v
    at hfill hpad' ⊢
  refine .of_live ?_
  have hpad'' : PadAgree (8 * (25 * s.iNat + rowLength s.iNat)) u v := hpad'
  rcases Nat.lt_or_eq_of_le hi with hlt | heq
  · obtain ⟨hstage, hnext, -⟩ := hrow.next hlt
    have hnext' : u.iNat = s.iNat + 1 := hnext
    refine (live_v1Fill hstage).2 ⟨hfill.pos, hfill.kstate, hpad''.mono ?_⟩
    rw [hnext', rowLength, stage1Max, if_pos hlt]
    omega
  · obtain ⟨hstage, -, -⟩ := hrow.last heq
    refine (live_v1Slotld hstage).2 ⟨hfill.pos, hpad''.mono ?_⟩
    rw [heq, rowLength, stage1Max, if_neg (by omega), words1]

theorem exec_slotld_live (hst : s.stage = .v1Slotld) (h : Live s t) : LiveAfter (exec .slotld s) (exec .slotld t) := by
  obtain ⟨hpos, hpad⟩ := (live_v1Slotld hst).1 h
  have hslots : (Vector.ofFn fun k : Fin 256 => s.pad32 (slotHome + k.val)) =
      Vector.ofFn fun k : Fin 256 => t.pad32 (slotHome + k.val) :=
    congrArg Vector.ofFn (funext fun k => hpad.pad32 (by rw [slotHome, words1]; omega))
  exact .of_live ((live_v1Perm rfl).2 ⟨⟨hpos.params, rfl, rfl, rfl, hpos.ver, hpos.err⟩, hslots, hpad⟩)

/-- What `PERM` reads (42_v1_fill_permute.md R158): the words of its chunk, the slots, and what it has set up itself. -/
structure PermAgree (s t : State) : Prop where
  words : ∀ k, k < 256 → s.chunkWord k = t.chunkWord k
  slots : s.slots = t.slots
  indices : s.indices = t.indices
  total : s.totalSum = t.totalSum

theorem PermAgree.permPass (h : PermAgree s t) {n : Nat} (hn : n < 256) : PermAgree (s.permPass n) (t.permPass n) := by
  have hword := h.words n hn
  have hval := fun pos => h.words (regGet t.indices pos).toNat (regGet t.indices pos).isLt
  refine ⟨h.words, ?_, ?_, ?_⟩
  all_goals simp only [State.permPass, hword, hval, h.slots, h.indices, h.total]

theorem PermAgree.permPhase2 {n : Nat} (h : PermAgree s t) (hn : n ≤ 256) :
    PermAgree (State.permPhase2 n s) (State.permPhase2 n t) := by
  induction n generalizing s t with
  | zero => exact h
  | succ n ih => exact ih (h.permPass hn) (Nat.le_of_lt hn)

theorem State.permPhase1_chunkWord (s : State) (k : Nat) : s.permPhase1.chunkWord k = s.chunkWord k := by
  simp only [State.chunkWord, State.pad32, State.jNat, State.permPhase1]

theorem permPhase1_agree (hwords : ∀ k, k < 256 → s.chunkWord k = t.chunkWord k) (hslots : s.slots = t.slots) :
    PermAgree s.permPhase1 t.permPhase1 where
  words k hk := by simpa only [State.permPhase1_chunkWord] using hwords k hk
  slots := by simpa only [State.permPhase1] using hslots
  indices := by simp only [State.permPhase1]
  total := by
    simp only [State.permPhase1]
    refine List.foldl_ext _ _ _ fun total k hk => ?_
    rw [State.permSum, State.permSum, hslots, hwords k (List.mem_range.1 hk)]

/-- The position after a chunk of `PERM`. -/
theorem Live.permNext (hpos : SamePos s t) (hslots : s.slots = t.slots) (hpad : PadAgree (8 * words1) s t) :
    Live s.permNext t.permNext := by
  simp only [State.permNext, ← hpos.iNat, ← hpos.jNat]
  split
  · exact (live_v1Perm rfl).2 ⟨hpos.goto _ hpos.i (by rw [hpos.j]), hslots, hpad⟩
  split
  · exact (live_v1Perm rfl).2 ⟨hpos.goto _ (by rw [hpos.i]) rfl, hslots, hpad⟩
  · exact (live_v1Slotwb rfl).2 ⟨hpos.goto _ rfl rfl, hslots, hpad⟩

theorem exec_perm_live (hst : s.stage = .v1Perm) (h : Live s t) : LiveAfter (exec .perm s) (exec .perm t) := by
  obtain ⟨hpos, hslots, hpad⟩ := (live_v1Perm hst).1 h
  simp only [exec, execPerm, ← hpos.jNat]
  refine .ite Iff.rfl fun hj => .of_live ?_
  have hwords : ∀ k, k < 256 → s.chunkWord k = t.chunkWord k := fun k hk => by
    rw [State.chunkWord, State.chunkWord, ← hpos.jNat]
    exact hpad.pad32 (by rw [words1]; omega)
  have hphase := (permPhase1_agree hwords hslots).permPhase2 (Nat.le_refl 256)
  obtain ⟨a, b, c, hs⟩ := s.perm_eq 256
  obtain ⟨a', b', c', ht⟩ := t.perm_eq 256
  rw [hs, ht] at hphase ⊢
  exact Live.permNext ⟨hpos.params, hpos.stage, hpos.i, hpos.j, hpos.ver, hpos.err⟩ hphase.slots hpad

/-- `SLOTWB` before it moves on (42_v1_fill_permute.md R161): it writes the scratchpad alone. -/
theorem State.setPad32s_only (s : State) (k : Nat) (f : Nat → Half) (l : Nat) :
    ∃ pad, s.setPad32s k f l = { s with pad := pad } :=
  ⟨_, State.setPad32s_eq s k f l⟩

theorem exec_slotwb_live (hst : s.stage = .v1Slotwb) (h : Live s t) : LiveAfter (exec .slotwb s) (exec .slotwb t) := by
  obtain ⟨hpos, hslots, hpad⟩ := (live_v1Slotwb hst).1 h
  have hwrite := hpad.setPad32s slotHome (f := fun k => regGet s.slots k) (g := fun k => regGet t.slots k)
    (by rw [hslots]) 256
  obtain ⟨pad, hs⟩ := s.setPad32s_only slotHome (fun k => regGet s.slots k) 256
  obtain ⟨pad', ht⟩ := t.setPad32s_only slotHome (fun k => regGet t.slots k) 256
  rw [hs, ht] at hwrite
  simp only [exec, execSlotwb, hs, ht]
  exact .of_live ((live_v1Prime rfl).2 ⟨⟨hpos.params, rfl, rfl, rfl, hpos.ver, hpos.err⟩, hwrite⟩)

end

section
variable {s t : State}

/-! ### The v1 mix on two runs -/

theorem memBytes_one {ver : BitVec 2} (h : ver = 1) : memBytes ver = 8 * words1 := by rw [h]; rfl

theorem memBytes_two {ver : BitVec 2} (h : ver = 2) : memBytes ver = 8 * words2 := by rw [h]; rfl

theorem memBytes_three {ver : BitVec 2} (h : ver = 3) : memBytes ver = 8 * words3 := by rw [h]; rfl

theorem exec_prime_live (hst : s.stage = .v1Prime) (h : Live s t) : LiveAfter (exec .prime s) (exec .prime t) := by
  obtain ⟨hpos, hpad⟩ := (live_v1Prime hst).1 h
  have hlast : s.pad64 (words1 - 1) = t.pad64 (words1 - 1) := hpad.pad64 (by decide)
  have hbuf : ∀ addr : Word, (Vector.ofFn fun k : Fin 42 => s.pad64 ((addr.toNat + k.val) % words1)) =
      Vector.ofFn fun k : Fin 42 => t.pad64 ((addr.toNat + k.val) % words1) := fun addr =>
    congrArg Vector.ofFn (funext fun k => hpad.pad64 (by rw [words1]; omega))
  simp only [exec, execPrime, hlast, hbuf]
  refine .of_live ((live_v1Head rfl).2 ⟨⟨hpos.params, rfl, rfl, rfl, hpos.ver, hpos.err⟩, rfl, rfl, hpad, fun k hk => ?_⟩)
  have hzero : 5000 ≤ k.val / 8 + 0 := hk
  omega

theorem exec_head1_live (hst : s.stage = .v1Head) (h : Live s t) : LiveAfter (exec .head1 s) (exec .head1 t) := by
  obtain ⟨hpos, hA, hB, hpad, hdig⟩ := (live_v1Head hst).1 h
  have hres : shim 1 (regGet s.bufA s.iNat) (regGet s.bufB s.iNat) =
      shim 1 (regGet t.bufA t.iNat) (regGet t.bufB t.iNat) := by rw [hA, hB, hpos.iNat]
  exact .of_live ((live_v1Br rfl).2 ⟨⟨hpos.params, rfl, hpos.i, rfl, hpos.ver, hpos.err⟩, hres, hA, hB, hpad, hdig⟩)

theorem exec_br1_live (hst : s.stage = .v1Br) (h : Live s t) : LiveAfter (exec .br1 s) (exec .br1 t) := by
  obtain ⟨hpos, hres, hA, hB, hpad, hdig⟩ := (live_v1Br hst).1 h
  have hop : s.v1Operands = t.v1Operands := by
    simp only [State.v1Operands, hres, hA, hB, hpos.iNat, hpos.jNat]
  simp only [exec, execBr1, v1Step, hop, hres, hpos.jNat]
  refine .of_live ?_
  split
  · exact (live_v1Br rfl).2
      ⟨⟨hpos.params, rfl, hpos.i, congrArg (· + 1) hpos.j, hpos.ver, hpos.err⟩, rfl, hA, hB, hpad, hdig⟩
  · exact (live_v1Tail rfl).2 ⟨⟨hpos.params, rfl, hpos.i, rfl, hpos.ver, hpos.err⟩, rfl, hA, hB, hpad, hdig⟩

/-- The bytes of `DIGEST` after iteration `i` (43_v1_mix.md R189). -/
theorem State.get_tailDigest (s : State) (hi : s.iNat ≤ 4999) (k : Fin 32) :
    s.tailDigest.get k = if k.val / 8 = 4999 - s.iNat then (be64 s.result).getD (k.val % 8) 0 else s.digest.get k := by
  have hk := k.isLt
  rw [State.tailDigest, mixIters1]
  by_cases hlast : s.iNat < 5000 ∧ 5000 - 1 - s.iNat ≤ 3
  · rw [if_pos hlast, emitDigest]
    simp [Vector.get_eq_getElem]
  · rw [if_neg hlast, if_neg (by omega)]

/-- Iteration `i` adds its eight bytes to those that agree. -/
theorem tailDigest_agree (hi : s.iNat ≤ 4999) (hit : s.iNat = t.iNat) (hres : s.result = t.result)
    (hdig : DigestAgree s.iNat s t) (k : Fin 32) (hk : 4999 ≤ k.val / 8 + s.iNat) :
    s.tailDigest.get k = t.tailDigest.get k := by
  rw [s.get_tailDigest hi, t.get_tailDigest (hit ▸ hi), ← hit, hres]
  split
  · rfl
  · exact hdig k (by omega)

theorem exec_tail1_live (hinv : RunInv s) (hst : s.stage = .v1Tail) (h : Live s t) :
    LiveAfter (exec .tail1 s) (exec .tail1 t) := by
  obtain ⟨hpos, hres, hA, hB, hpad, hdig⟩ := (live_v1Tail hst).1 h
  obtain ⟨hver, hi, -⟩ : s.ver = 1 ∧ s.iNat ≤ 4999 ∧ s.j = 0 := hinv.seq_at hst
  have hlow := toNat_slice15_lt s.result 0
  have hread : s.pad64 (slice15 s.result 0).toNat = t.pad64 (slice15 s.result 0).toNat :=
    hpad.pad64 (by rw [words1]; omega)
  have hbufA : regSet s.bufA s.iNat s.result = regSet t.bufA t.iNat t.result := by rw [hA, hres, hpos.iNat]
  have hbufB : regSet s.bufB s.iNat (s.pad64 (slice15 s.result 0).toNat) =
      regSet t.bufB t.iNat (t.pad64 (slice15 t.result 0).toNat) := by rw [hread, hB, hres, hpos.iNat]
  have hpad' : PadAgree (8 * words1) (s.setPad64 (slice15 s.result 15).toNat s.result)
      (t.setPad64 (slice15 t.result 15).toNat t.result) := by
    rw [← hres]
    exact hpad.setPad64 _ rfl
  have hpad'' := hpad'
  rw [← memBytes_one hver] at hpad''
  have hdig' := tailDigest_agree hi hpos.iNat hres hdig
  simp only [exec, execTail1, ← hpos.iNat]
  refine .of_live ?_
  split
  · rename_i hlt
    have hs := State.toNat_succ (x := s.i) (n := 5000) (Nat.lt_succ_of_le hi) (by omega)
    refine (live_v1Head rfl).2
      ⟨⟨hpos.params, rfl, congrArg (· + 1) hpos.i, rfl, hpos.ver, hpos.err⟩, ?_, ?_, hpad', fun k hk => hdig' k ?_⟩
    · exact hpos.iNat ▸ hbufA
    · exact hpos.iNat ▸ hbufB
    · have hk' : 5000 ≤ k.val / 8 + (s.i + 1).toNat := hk
      rw [hs] at hk'
      exact Nat.le_of_succ_le_succ hk'
  · rename_i hlt
    refine (live_done rfl).2 ⟨⟨hpos.params, rfl, rfl, rfl, hpos.ver, hpos.err⟩, ?_, ?_⟩
    · refine Vector.ext fun k hk => ?_
      exact hdig' ⟨k, hk⟩ (by rw [mixIters1] at hlt; omega)
    · exact hpad''

/-! ### The v2 and v3 fill on two runs -/

theorem exec_cfzero_live (hst : s.stage = .cfZero) (h : Live s t) : LiveAfter (exec .cfzero s) (exec .cfzero t) := by
  obtain ⟨hpos, hin⟩ := (live_cfZero hst).1 h
  have hpad := padAgree_zeroPad (memBytes s.ver) s t
  simp only [exec, execCfzero, ← hpos.ver]
  exact .ite Iff.rfl fun _ =>
    .of_live ((live_cfSeed rfl).2 ⟨⟨hpos.params, rfl, rfl, rfl, hpos.ver, hpos.err⟩, hin, hpad⟩)

theorem exec_cfseed_live (hst : s.stage = .cfSeed) (h : Live s t) : LiveAfter (exec .cfseed s) (exec .cfseed t) := by
  obtain ⟨hpos, hin, hpad⟩ := (live_cfSeed hst).1 h
  have hbytes : s.inBytes 0 s.len.toNat = t.inBytes 0 t.len.toNat := by
    rw [← hin.1]
    exact hin.inBytes (Nat.le_refl _)
  have hcount : chunkCount s.len = chunkCount t.len := by rw [hin.1]
  simp only [exec, execCfseed, hbytes, hcount]
  generalize blake3 (t.inBytes 0 t.len.toNat) = hash
  refine .of_live ?_
  split
  · exact (live_mxSetup rfl).2 ⟨⟨hpos.params, rfl, rfl, rfl, hpos.ver, hpos.err⟩, hpad⟩
  · exact (live_cfChunk rfl).2 ⟨⟨hpos.params, rfl, rfl, rfl, hpos.ver, hpos.err⟩, hin, rfl, rfl, rfl, rfl, hpad⟩

/-- The keystream applied in both runs (44_chacha_fill.md R202). -/
theorem chunkFill_agree {n offset cur : Nat} (hh : s.h = t.h) (hnonce : s.nonce = t.nonce) (hpad : PadAgree n s t)
    (hfit : offset + cur ≤ n) (hcur : 12 ≤ cur) :
    (s.chunkFill offset cur).nonce = (t.chunkFill offset cur).nonce ∧
      PadAgree n (s.chunkFill offset cur) (t.chunkFill offset cur) := by
  have hbytes : (s.padBytes offset cur).zipWith (· ^^^ ·) (chacha8Keystream s.h.toList s.nonce.toList cur) =
      (t.padBytes offset cur).zipWith (· ^^^ ·) (chacha8Keystream t.h.toList t.nonce.toList cur) := by
    rw [hpad.padBytes hfit, hh, hnonce]
  have hwritten := hpad.setPadBytes offset hbytes
  exact ⟨congrArg (bytesToVector 12) (hwritten.padBytes (by omega)), hwritten⟩

/-- The position after a chunk. -/
theorem Live.chunkNext (hpos : SamePos s t) (hin : InputAgree s t) (hh : s.h = t.h) (hnonce : s.nonce = t.nonce)
    (hoff : s.outOff = t.outOff) (hnum : s.numChunks = t.numChunks) (hpad : PadAgree (memBytes s.ver) s t) :
    Live s.chunkNext t.chunkNext := by
  simp only [State.chunkNext, ← hpos.iNat, ← hnum]
  split
  · exact (live_cfChunk rfl).2 ⟨hpos.goto _ (by rw [hpos.i]) rfl, hin, hh, hnonce, hoff, hnum, hpad⟩
  · exact (live_mxSetup rfl).2 ⟨hpos.goto _ rfl rfl, hpad⟩

/-- A chunk that fits, in both runs. -/
theorem Live.chunk {offset cur : Nat} (hpos : SamePos s t) (hin : InputAgree s t) (hh : s.h = t.h) (hnonce : s.nonce = t.nonce)
    (hoff : s.outOff = t.outOff) (hnum : s.numChunks = t.numChunks) (hpad : PadAgree (memBytes s.ver) s t)
    (hfit : offset + cur ≤ memBytes s.ver) (hcur : 12 ≤ cur) :
    Live (s.chunkFill offset cur).chunkNext (t.chunkFill offset cur).chunkNext := by
  obtain ⟨hnonce', hpad'⟩ := chunkFill_agree hh hnonce hpad hfit hcur
  obtain ⟨pad, nonce, hs⟩ := s.chunkFill_eq offset cur
  obtain ⟨pad', nonce', ht⟩ := t.chunkFill_eq offset cur
  rw [hs, ht] at hnonce' hpad' ⊢
  exact Live.chunkNext ⟨hpos.params, hpos.stage, hpos.i, hpos.j, hpos.ver, hpos.err⟩ ⟨hin.1, hin.2⟩ hh hnonce'
    (congrArg (· + BitVec.ofNat 64 cur) hoff) hnum hpad'

theorem exec_cfchunk_live (hst : s.stage = .cfChunk) (h : Live s t) : LiveAfter (exec .cfchunk s) (exec .cfchunk t) := by
  obtain ⟨hpos, hin, hh, hnonce, hoff, hnum, hpad⟩ := (live_cfChunk hst).1 h
  have hcur : s.chunkCur = t.chunkCur := by simp only [State.chunkCur, hpos.ver, hoff, hnum, hpos.i]
  have hmsg : s.chunkMessage = t.chunkMessage := by
    simp only [State.chunkMessage, ← hpos.iNat, ← hin.1, ← hh]
    rw [hin.inBytes (by omega)]
  have hmem : memBytes t.ver = memBytes s.ver := by rw [hpos.ver]
  simp only [exec, execCfchunk, ← hpos.iNat, ← hcur, ← hmsg, hmem]
  generalize bytesToVector 32 (blake3 s.chunkMessage) = hash
  refine .ite (by rw [hpos.ver]) fun _ => .ite (by rw [hnum]) fun _ => .of_live ?_
  split
  · exact (live_fault rfl).2 ⟨hpos.params, rfl, rfl, rfl, hpos.ver, rfl⟩
  rename_i hfit
  split
  · exact (live_fault rfl).2 ⟨hpos.params, rfl, rfl, rfl, hpos.ver, rfl⟩
  rename_i hlong
  exact Live.chunk (s := { s with h := hash }) (t := { t with h := hash })
    ⟨hpos.params, hpos.stage, hpos.i, hpos.j, hpos.ver, hpos.err⟩ hin rfl hnonce hoff hnum hpad
    (Nat.le_of_not_lt hfit) (Nat.le_of_not_lt hlong)

end

section
variable {s t : State}

/-! ### The v2 and v3 mix on two runs -/

/-- `MXSETUP` reads the last words of the two halves (45_v2_mix.md R220). -/
theorem halfWords_bounds {ver : BitVec 2} (h : ver = 2 ∨ ver = 3) :
    8 * (halfWords ver - 1) + 8 ≤ memBytes ver ∧ 8 * (halfWords ver + (halfWords ver - 1)) + 8 ≤ memBytes ver := by
  rcases h with rfl | rfl <;> decide

theorem exec_mxsetup_live (hinv : RunInv s) (hst : s.stage = .mxSetup) (h : Live s t) :
    LiveAfter (exec .mxsetup s) (exec .mxsetup t) := by
  obtain ⟨hpos, hpad⟩ := (live_mxSetup hst).1 h
  obtain ⟨hver, -, -⟩ : (s.ver = 2 ∨ s.ver = 3) ∧ s.i = 0 ∧ s.j = 0 := hinv.seq_at hst
  obtain ⟨hlow, hhigh⟩ := halfWords_bounds hver
  have hA : s.mb (halfWords s.ver) (halfWords s.ver - 1) = t.mb (halfWords t.ver) (halfWords t.ver - 1) := by
    rw [← hpos.ver]
    exact hpad.pad64 hhigh
  have hB : s.ma (halfWords s.ver - 1) >>> 32 = t.ma (halfWords t.ver - 1) >>> 32 := by
    have hword : s.ma (halfWords s.ver - 1) = t.ma (halfWords s.ver - 1) := hpad.pad64 hlow
    rw [hword, hpos.ver]
  simp only [exec, execMxsetup]
  refine .ite (by rw [hpos.ver]) fun _ => .of_live ?_
  rcases hver with hver | hver
  · rw [if_pos hver, if_pos (hpos.ver ▸ hver)]
    exact (live_v2Head rfl).2
      ⟨⟨hpos.params, rfl, rfl, rfl, hpos.ver, hpos.err⟩, hA, hB, rfl, memBytes_two hver ▸ hpad⟩
  · rw [if_neg (by rw [hver]; decide), if_neg (by rw [← hpos.ver, hver]; decide)]
    exact (live_v3Head rfl).2
      ⟨⟨hpos.params, rfl, rfl, rfl, hpos.ver, hpos.err⟩, hA, hB, rfl, memBytes_three hver ▸ hpad⟩

theorem exec_head2_live (hst : s.stage = .v2Head) (h : Live s t) : LiveAfter (exec .head2 s) (exec .head2 t) := by
  obtain ⟨hpos, hA, hB, hr, hpad⟩ := (live_v2Head hst).1 h
  have hmemA : s.ma (s.addrA.toNat % half2) = t.ma (t.addrA.toNat % half2) := by
    rw [← hA]
    exact hpad.pad64 (by rw [words2, half2]; omega)
  have hmemB : s.mb half2 (s.addrB.toNat % half2) = t.mb half2 (t.addrB.toNat % half2) := by
    rw [← hB]
    exact hpad.pad64 (by rw [words2, half2]; omega)
  simp only [exec, execHead2, hmemA, hmemB]
  exact .of_live ((live_v2Step rfl).2 ⟨⟨hpos.params, rfl, hpos.i, rfl, hpos.ver, hpos.err⟩, rfl, hr, hpad⟩)

/-- The cursor of a step of v2 is a word of the scratchpad (10_state.md R33). -/
theorem RunInv.r_lt_of_v2Step (h : RunInv s) (hst : s.stage = .v2Step) : s.r.toNat < 54912 := by
  have hcur : s.r.toNat = (27456 * s.iNat + s.jNat) % 54912 := h.cursor_at hst
  omega

/-- The cursor of a step of v3 is a word of the scratchpad (10_state.md R33). -/
theorem RunInv.r_lt_of_v3Step (h : RunInv s) (hst : s.stage = .v3Step) : s.r.toNat < 67968 := by
  have hcur : s.r.toNat = (33984 * s.iNat + s.jNat) % 67968 := h.cursor_at hst
  omega

/-- `STEP2` fetches the same operands in both runs (45_v2_mix.md R222). -/
theorem v2Operands_agree (hpos : SamePos s t) (hres : s.result = t.result) (hr : s.r = t.r)
    (hpad : PadAgree (8 * words2) s t) (hlt : s.r.toNat < 54912) : s.v2Operands = t.v2Operands := by
  have hread : ∀ k, k < 54912 → s.pad64 k = t.pad64 k := fun k hk => hpad.pad64 (by rw [words2]; omega)
  simp only [State.v2Operands, State.ma, State.mb, ← hres, ← hr, ← hpos.i, ← hpos.j]
  rw [hread _ hlt, hread (s.result.toNat % half2) (by rw [half2]; omega),
    hread (half2 + _ % half2) (by rw [half2]; omega)]

theorem exec_step2_live (hinv : RunInv s) (hst : s.stage = .v2Step) (h : Live s t) :
    LiveAfter (exec .step2 s) (exec .step2 t) := by
  obtain ⟨hpos, hres, hr, hpad⟩ := (live_v2Step hst).1 h
  have hop := v2Operands_agree hpos hres hr hpad (hinv.r_lt_of_v2Step hst)
  simp only [exec, execStep2, v2Step, ← hop, ← hpos.jNat, ← hres]
  generalize v2Table.get (mixNibble s.result s.v2Operands.c).toFin = entry
  refine .ite (by rw [hr]) fun ⟨hj, _⟩ => .of_live ?_
  have hread : s.ma (half2 - s.jNat - 1) = t.ma (half2 - s.jNat - 1) := hpad.pad64 (by rw [words2, half2]; omega)
  rw [← hread]
  generalize rotl (entry s.v2Operands) 1 = result
  generalize s.ma (half2 - s.jNat - 1) ^^^ result = word
  have hlow := hpad.setPad64 (half2 - s.jNat - 1) (rfl : word = word)
  have hhigh := hlow.setPad64 (half2 + s.jNat) (congrArg (· ^^^ rotr word result.toNat)
    (hlow.pad64 (k := half2 + s.jNat) (by rw [words2, half2] at *; omega)))
  split
  · exact (live_v2Step rfl).2
      ⟨⟨hpos.params, rfl, hpos.i, congrArg (· + 1) hpos.j, hpos.ver, hpos.err⟩, rfl, rfl, hhigh⟩
  · exact (live_v2Tail rfl).2 ⟨⟨hpos.params, rfl, hpos.i, rfl, hpos.ver, hpos.err⟩, rfl, rfl, hhigh⟩

theorem exec_tail2_live (hinv : RunInv s) (hst : s.stage = .v2Tail) (h : Live s t) :
    LiveAfter (exec .tail2 s) (exec .tail2 t) := by
  obtain ⟨hpos, hres, hr, hpad⟩ := (live_v2Tail hst).1 h
  obtain ⟨hver, -, -⟩ : s.ver = 2 ∧ s.iNat ≤ 2 ∧ s.j = 0 := hinv.seq_at hst
  simp only [exec, execTail2, ← hpos.iNat]
  refine .of_live ?_
  split
  · exact (live_v2Head rfl).2 ⟨⟨hpos.params, rfl, congrArg (· + 1) hpos.i, rfl, hpos.ver, hpos.err⟩, hres,
      congrArg isqrt hres, hr, hpad⟩
  · exact (live_fin rfl).2 ⟨⟨hpos.params, rfl, rfl, rfl, hpos.ver, hpos.err⟩, (memBytes_two hver).symm ▸ hpad⟩

theorem exec_head3_live (hst : s.stage = .v3Head) (h : Live s t) : LiveAfter (exec .head3 s) (exec .head3 t) := by
  obtain ⟨hpos, hA, hB, hr, hpad⟩ := (live_v3Head hst).1 h
  have hmemA : s.ma (mapIndex s.addrA) = t.ma (mapIndex t.addrA) := by
    rw [← hA]
    exact hpad.pad64 (by have := mapIndex_lt s.addrA; rw [words3]; omega)
  have hmemB : ∀ x, s.mb half3 (mapIndex x) = t.mb half3 (mapIndex x) := fun x =>
    hpad.pad64 (by have := mapIndex_lt x; rw [words3, half3]; omega)
  simp only [exec, execHead3, hmemA, hmemB, hB]
  exact .of_live ((live_v3Step rfl).2 ⟨⟨hpos.params, rfl, hpos.i, rfl, hpos.ver, hpos.err⟩, rfl, hA, rfl, hr, hpad⟩)

/-- `STEP3` fetches the same operands in both runs (46_v3_mix.md R251). -/
theorem v3Operands_agree (hpos : SamePos s t) (hres : s.result = t.result) (hr : s.r = t.r)
    (hread : ∀ k, k < 67968 → s.pad64 k = t.pad64 k) (hlt : s.r.toNat < 67968) : s.v3Operands = t.v3Operands := by
  have hlow : ∀ x, s.pad64 (mapIndex x) = t.pad64 (mapIndex x) := fun x =>
    hread _ (Nat.lt_trans (mapIndex_lt x) (by decide))
  have hhigh : ∀ x, s.pad64 (half3 + mapIndex x) = t.pad64 (half3 + mapIndex x) := fun x =>
    hread _ (by have := mapIndex_lt x; rw [half3]; omega)
  simp only [State.v3Operands, State.ma, State.mb, ← hres, ← hr, ← hpos.i, ← hpos.j, hlow, hhigh, hread _ hlt]

/-- `STEP3` forms the same word in both runs (46_v3_mix.md R251). -/
theorem v3Word_agree (hres : s.result = t.result) (hread : ∀ k, k < 67968 → s.pad64 k = t.pad64 k) (v result : Word) :
    s.v3Word v result = t.v3Word v result := by
  have hlt := mapIndex_lt (v ^^^ s.result)
  rw [State.v3Word, State.v3Word, ← hres, State.ma, State.mb, State.ma, State.mb, hread _ (by rw [half3]; omega),
    hread (mapIndex (v ^^^ s.result)) (by omega)]

theorem exec_step3_live (hinv : RunInv s) (hst : s.stage = .v3Step) (h : Live s t) :
    LiveAfter (exec .step3 s) (exec .step3 t) := by
  obtain ⟨hpos, hres, hA, hB, hr, hpad⟩ := (live_v3Step hst).1 h
  have hread : ∀ k, k < 67968 → s.pad64 k = t.pad64 k := fun k hk => hpad.pad64 (by rw [words3]; omega)
  have hop := v3Operands_agree hpos hres hr hread (hinv.r_lt_of_v3Step hst)
  have hword := v3Word_agree hres hread
  simp only [exec, execStep3, v3Step, ← hop, ← hword, ← hpos.iNat, ← hpos.jNat, ← hres]
  generalize v3Table.get (mixNibble s.result s.v3Operands.c).toFin = entry
  refine .ite (by rw [hr]) fun _ => .of_live ?_
  generalize rotl (entry s.v3Operands ^^^ s.result) s.v3Operands.r.toNat = result
  generalize s.v3Word (entry s.v3Operands) result = word
  have hia := v3IndexA_lt word result
  have hib := v3IndexB_lt word result
  generalize v3IndexA word result = ia at hia ⊢
  generalize v3IndexB word result = ib at hib ⊢
  have hold : s.ma ia = t.ma ia := hread _ (by omega)
  rw [← hold]
  have hlow := hpad.setPad64 ia (rfl : word = word)
  have hhigh := hlow.setPad64 (half3 + ib) (congrArg (· ^^^ (s.ma ia ^^^ rotr word (s.iNat + s.jNat)))
    (hlow.pad64 (k := half3 + ib) (by rw [words3, half3]; omega)))
  split
  · exact (live_v3Step rfl).2
      ⟨⟨hpos.params, rfl, hpos.i, congrArg (· + 1) hpos.j, hpos.ver, hpos.err⟩, rfl, hA, hB, rfl, hhigh⟩
  · exact (live_v3Tail rfl).2 ⟨⟨hpos.params, rfl, hpos.i, rfl, hpos.ver, hpos.err⟩, rfl, hA, hB, rfl, hhigh⟩

theorem exec_tail3_live (hinv : RunInv s) (hst : s.stage = .v3Tail) (h : Live s t) :
    LiveAfter (exec .tail3 s) (exec .tail3 t) := by
  obtain ⟨hpos, hres, hA, hB, hr, hpad⟩ := (live_v3Tail hst).1 h
  obtain ⟨hver, -, -⟩ : s.ver = 3 ∧ s.iNat ≤ 1 ∧ s.j = 0 := hinv.seq_at hst
  have hmod : modpow s.params s.addrA s.addrB s.result = modpow t.params t.addrA t.addrB t.result := by
    rw [hpos.params, hA, hB, hres]
  have hB' : isqrt s.result * (s.r + 1) = isqrt t.result * (t.r + 1) := by rw [hres, hr]
  simp only [exec, execTail3, ← hpos.iNat, hmod, hB']
  refine .of_live ?_
  split
  · exact (live_v3Head rfl).2
      ⟨⟨hpos.params, rfl, congrArg (· + 1) hpos.i, rfl, hpos.ver, hpos.err⟩, rfl, rfl, hr, hpad⟩
  · exact (live_fin rfl).2 ⟨⟨hpos.params, rfl, rfl, rfl, hpos.ver, hpos.err⟩, (memBytes_three hver).symm ▸ hpad⟩

theorem exec_fin_live (hst : s.stage = .fin) (h : Live s t) : LiveAfter (exec .fin s) (exec .fin t) := by
  obtain ⟨hpos, hpad⟩ := (live_fin hst).1 h
  have hbytes : s.padBytes 0 (memBytes s.ver) = t.padBytes 0 (memBytes t.ver) := by
    rw [← hpos.ver]
    exact hpad.padBytes (by omega)
  simp only [exec, execFin, hbytes]
  generalize bytesToVector 32 (blake3 (t.padBytes 0 (memBytes t.ver))) = digest
  exact .ite (by rw [hpos.ver]) fun _ =>
    .of_live ((live_done rfl).2 ⟨⟨hpos.params, rfl, rfl, rfl, hpos.ver, hpos.err⟩, rfl, hpad⟩)

/-! ### Two runs in step -/

/-- The operation of every busy stage keeps what is live (70_reset_and_hazards.md R355). -/
theorem Live.operation (h : Live s t) (hinv : RunInv s) {c : Instr} (hc : decodeSeq (stageCode s.stage) = .ok c) :
    LiveAfter (exec c s) (exec c t) := by
  cases hst : s.stage
  all_goals
    rw [hst] at hc
    cases hc
  case v1Absorb => exact exec_absorb_live hst h
  case v1Fill => exact exec_kfill_live hinv hst h
  case v1Slotld => exact exec_slotld_live hst h
  case v1Perm => exact exec_perm_live hst h
  case v1Slotwb => exact exec_slotwb_live hst h
  case v1Prime => exact exec_prime_live hst h
  case v1Head => exact exec_head1_live hst h
  case v1Br => exact exec_br1_live hst h
  case v1Tail => exact exec_tail1_live hinv hst h
  case cfZero => exact exec_cfzero_live hst h
  case cfSeed => exact exec_cfseed_live hst h
  case cfChunk => exact exec_cfchunk_live hst h
  case mxSetup => exact exec_mxsetup_live hinv hst h
  case v2Head => exact exec_head2_live hst h
  case v2Step => exact exec_step2_live hinv hst h
  case v2Tail => exact exec_tail2_live hinv hst h
  case v3Head => exact exec_head3_live hst h
  case v3Step => exact exec_step3_live hinv hst h
  case v3Tail => exact exec_tail3_live hinv hst h
  case fin => exact exec_fin_live hst h

/-- With an empty list the sequencer moves in every step (log 6). -/
theorem nextSelector_of_nil (h : s.inputs = []) : s.nextSelector = s.seqSelector := by
  rw [State.nextSelector, h]

theorem takeInput_of_nil (h : s.inputs = []) : s.takeInput = s := by
  rw [State.takeInput, h, List.tail_nil, ← h]

/-- A sequencer at rest with an empty list stays as it is (10_state.md R25). -/
theorem step_of_rest_nil (hb : s.busy = false) (hin : s.inputs = []) : step s = .next s := by
  rw [step_of_rest hb (nextSelector_of_nil hin), State.noOperation, hin]

/-- One step of an engine that the host leaves alone: it answers, and keeps the invariant, the host's registers and the
empty list. -/
theorem RunInv.step_alone (h : RunInv s) (hin : s.inputs = []) : Progress s (step s) := by
  cases hb : s.busy with
  | true =>
    have hstep := h.step_progress hb (nextSelector_of_nil hin)
    rwa [takeInput_of_nil hin] at hstep
  | false => exact ⟨s, step_of_rest_nil hb hin, ⟨rfl, rfl, rfl, rfl, rfl, rfl⟩, h⟩

theorem SamePos.busy (h : SamePos s t) : t.busy = s.busy := by
  rw [State.busy, State.busy, h.stage]

/-- One step of two engines in step that the hosts leave alone (70_reset_and_hazards.md R355). -/
theorem Live.step_alone (h : Live s t) (hs : RunInv s) (ht : RunInv t) (hsin : s.inputs = []) (htin : t.inputs = []) :
    LiveAfter (step s) (step t) := by
  have hpos := h.samePos
  cases hb : s.busy with
  | true =>
    obtain ⟨c, hc, -⟩ := hs.operation_progress hb
    rw [hs.step_of_sequencer hb (nextSelector_of_nil hsin) hc,
      ht.step_of_sequencer (hpos.busy.trans hb) (nextSelector_of_nil htin) (hpos.stage ▸ hc), takeInput_of_nil hsin,
      takeInput_of_nil htin]
    exact h.operation hs hc
  | false =>
    rw [step_of_rest_nil hb hsin, step_of_rest_nil (hpos.busy.trans hb) htin]
    exact .of_live h

/-- A run begins with a step. -/
theorem run_succ_of_next {u : State} {n : Nat} (h : step s = .next u) :
    Host.Core.run Sys2Proof.core (n + 1) s = Host.Core.run Sys2Proof.core n u := by
  have hcore : Sys2Proof.core.step s = .next u := h
  simp only [Host.Core.run, hcore]

/-- Two engines in step stay so for any number of steps (70_reset_and_hazards.md R354). -/
theorem Live.run (n : Nat) (h : Live s t) (hs : RunInv s) (ht : RunInv t) (hsin : s.inputs = []) (htin : t.inputs = []) :
    ∃ u v, Host.Core.run Sys2Proof.core n s = .next u ∧ Host.Core.run Sys2Proof.core n t = .next v ∧ u.ver = s.ver ∧
      Live u v := by
  induction n generalizing s t with
  | zero => exact ⟨s, t, rfl, rfl, rfl, h⟩
  | succ n ih =>
    obtain ⟨s', hs', hsf, hsinv⟩ := hs.step_alone hsin
    obtain ⟨t', ht', htf, htinv⟩ := ht.step_alone htin
    have hlive := h.step_alone hs ht hsin htin s' t' hs' ht'
    obtain ⟨u, v, hu, hv, hver, huv⟩ := ih hlive hsinv htinv (hsf.inputs.trans hsin) (htf.inputs.trans htin)
    exact ⟨u, v, (run_succ_of_next hs').trans hu, (run_succ_of_next ht').trans hv, hver.trans hsf.ver, huv⟩

/-- `START` on two engines with the same parameters, version and input: the same fault, or two runs in step (R297). -/
theorem live_startRun (hpar : s.params = t.params) (hver : s.ver = t.ver) (hpadded : s.ver = 1 → s.padded = t.padded)
    (hin : InputAgree s t) : Live s.startRun t.startRun := by
  have hfault : s.startFault = t.startFault := by
    by_cases h1 : s.ver = 1
    · simp only [State.startFault, hver, hpar, hin.1, hpadded h1]
    · have h1' : ¬ t.ver = 1 := hver ▸ h1
      simp only [State.startFault, hver, hpar, hin.1, h1', false_and]
  by_cases hf : s.startFault = .none
  · rw [State.startRun_of_accepted hf, State.startRun_of_accepted (hfault ▸ hf)]
    by_cases h1 : s.ver = 1
    · rw [if_pos h1, if_pos (hver ▸ h1)]
      exact (live_v1Absorb rfl).2 ⟨⟨hpar, rfl, rfl, rfl, hver, rfl⟩, hin⟩
    · rw [if_neg h1, if_neg (hver ▸ h1)]
      exact (live_cfZero rfl).2 ⟨⟨hpar, rfl, rfl, rfl, hver, rfl⟩, hin⟩
  · rw [State.startRun_of_fault hf, State.startRun_of_fault (hfault ▸ hf)]
    exact (live_fault rfl).2 ⟨hpar, rfl, rfl, rfl, hver, hfault⟩

theorem State.startRun_ver (s : State) : s.startRun.ver = s.ver := by
  by_cases hf : s.startFault = .none
  · rw [State.startRun_of_accepted hf, State.goto_ver]
  · rw [State.startRun_of_fault hf, State.raise_ver]

theorem State.startRun_inputs (s : State) : s.startRun.inputs = s.inputs := by
  by_cases hf : s.startFault = .none
  · rw [State.startRun_of_accepted hf, State.goto_inputs]
  · rw [State.startRun_of_fault hf, State.raise_inputs]

end

/-- Settles O15: `START` brings the two engines in step, every step keeps them so, and in `S_DONE` what is live is the digest
and the scratchpad. -/
theorem purity : Obligations.Purity := by
  intro s t s' t' hs ht hsb htb hsin htin hpar hver hpadded hin hs' ht' n
  rw [exec_start_of_rest hsb] at hs'
  rw [exec_start_of_rest htb] at ht'
  cases hs'
  cases ht'
  obtain ⟨u, v, hu, hv, huver, hlive⟩ := (live_startRun hpar hver hpadded hin).run n hs.startRun ht.startRun
    (s.startRun_inputs.trans hsin) (t.startRun_inputs.trans htin)
  refine ⟨u, v, hu, hv, hlive.samePos.stage, hlive.samePos.err, fun hdone => ?_⟩
  obtain ⟨-, hdigest, hpad⟩ := (live_done hdone).1 hlive
  rw [huver, s.startRun_ver] at hpad
  exact ⟨hdigest, hpad⟩

end Sys2Proof.Machine

/-! The statements on the state (10_state.md): what a step runs, what the reset leaves, what two runs in step agree on, the
host's reads and writes that are answered or refused, and where the meanings stop by name. -/

namespace Sys2Proof.Machine

/-! ### Two runs in step -/

/-- Settles O14: the other run answers too, by its invariant, and the operation of the stage keeps what is live. -/
theorem liveStep : Obligations.LiveStep := by
  intro s t s' hs ht hsin htin _ hlive hs'
  obtain ⟨t', ht', -, -⟩ := ht.step_alone htin
  exact ⟨t', ht', hlive.step_alone hs ht hsin htin s' t' hs' ht'⟩

/-! ### Which operation a step runs -/

/-- Settles O3: the fetch decodes the next selector (30_encoding.md R90). -/
theorem stepRunsDecoded : Obligations.StepRunsDecoded := by
  intro s sel c hsel hc
  simp only [step, State.fetch, hsel, hc, State.takeInput]

/-- The stages whose code decodes to an operation are the busy ones (10_state.md R25, R26). -/
theorem State.busy_of_decodeSeq {s : State} {c : Instr} (hc : decodeSeq (stageCode s.stage) = .ok c) : s.busy = true := by
  cases hst : s.stage with
  | idle | done | fault => rw [hst] at hc; cases hc
  | _ => rw [State.busy, hst]

/-- With nothing from the host the operation of the stage code runs, in any state whose fill row is at its first word
(10_state.md R24, 30_encoding.md R96). -/
theorem step_of_stage {s : State} {st : Stage} {c : Instr} (hin : s.inputs = []) (hj : s.stage = .v1Fill → s.j = 0)
    (hst : s.stage = st) (hc : decodeSeq (stageCode st) = .ok c) : step s = exec c s := by
  subst hst
  have hb : s.busy = true := State.busy_of_decodeSeq hc
  have hfirst : ¬ (s.stage = .v1Fill ∧ s.j ≠ 0) := fun ⟨hs, hne⟩ => hne (hj hs)
  have hsel : s.nextSelector = some (.seq (stageCode s.stage)) := by
    rw [nextSelector_of_nil hin, State.seqSelector, if_neg (by simp [hb]), if_neg hfirst]
  exact (stepRunsDecoded s _ c hsel hc).trans (congrArg (exec c) (takeInput_of_nil hin))

/-- Settles O4: each busy stage by its code, the resting ones by `step_of_rest_nil`. -/
theorem stageRunsOperation : Obligations.StageRunsOperation := by
  intro s hin hj
  have run {st : Stage} {c : Instr} (hc : decodeSeq (stageCode st) = .ok c) (hst : s.stage = st) : step s = exec c s :=
    step_of_stage hin hj hst hc
  refine ⟨run rfl, run rfl, run rfl, run rfl, run rfl, run rfl, run rfl, run rfl, run rfl, run rfl, run rfl, run rfl,
    run rfl, run rfl, run rfl, run rfl, run rfl, run rfl, run rfl, run rfl, fun hrest => step_of_rest_nil ?_ hin⟩
  rcases hrest with hst | hst | hst
  all_goals rw [State.busy, hst]

/-! ### The reset -/

/-- Settles O6: at rest the invariant asks for the position `(S_IDLE, 0, 0)`, `ERR = 0` and empty memories. -/
theorem resetInv : Obligations.ResetInv where
  params := show 200 ≤ 4096 by omega
  seq := ⟨rfl, rfl⟩
  cursor := trivial
  len := fun hb => nomatch hb
  fill := fun hs => nomatch hs
  errFault := ⟨fun he => absurd rfl he, fun hs => nomatch hs⟩
  errRaised := ⟨(nomatch ·), (nomatch ·)⟩
  padWf := Memory.wf_nil
  padRange := (Memory.within_nil _).2
  inputWf := Memory.wf_nil
  inputRange := (Memory.within_nil _).2

/-! ### `STATUS` and `MODE` as words -/

/-- Two fields of a register, the second from bit `k` on (10_state.md R21). -/
theorem toNat_fields {m n k : Nat} (x : BitVec m) (y : BitVec n) (hm : m ≤ k) (hn : k + n ≤ 32) :
    (x.setWidth 32 ||| y.setWidth 32 <<< k).toNat = x.toNat + 2 ^ k * y.toNat := by
  have hx : x.toNat < 2 ^ k := Nat.lt_of_lt_of_le x.isLt (Nat.pow_le_pow_right (by omega) hm)
  have hy : 2 ^ k * y.toNat < 2 ^ 32 :=
    calc 2 ^ k * y.toNat < 2 ^ k * 2 ^ n := Nat.mul_lt_mul_of_pos_left y.isLt (Nat.two_pow_pos k)
      _ = 2 ^ (k + n) := (Nat.pow_add 2 k n).symm
      _ ≤ 2 ^ 32 := Nat.pow_le_pow_right (by omega) hn
  rw [BitVec.toNat_or, BitVec.toNat_shiftLeft, BitVec.toNat_setWidth_of_le (by omega),
    BitVec.toNat_setWidth_of_le (by omega), Nat.shiftLeft_eq, Nat.mul_comm y.toNat, Nat.mod_eq_of_lt hy, Nat.or_comm,
    ← Nat.two_pow_add_eq_or_of_lt hx, Nat.add_comm]

/-- `STATUS` on numbers (47_finalize_host.md R299). -/
theorem State.toNat_statusWord (s : State) : s.statusWord.toNat = s.runCode.toNat + 16 * (errNumber s.err).toNat :=
  toNat_fields s.runCode (errNumber s.err) (by omega) (by omega)

/-- `MODE` on numbers (47_finalize_host.md R298). -/
theorem State.toNat_modeWord (s : State) : s.modeWord.toNat = s.ver.toNat + if s.padded then 4 else 0 := by
  have hword : s.modeWord.toNat = s.ver.toNat + 4 * (BitVec.ofBool s.padded).toNat :=
    toNat_fields s.ver (BitVec.ofBool s.padded) (by omega) (by omega)
  rw [hword]
  cases s.padded <;> rfl

/-- `STATUS.RUN` on numbers (10_state.md R26). -/
theorem State.toNat_runCode (s : State) : s.runCode.toNat =
    if s.stage = .idle then 0 else if s.stage = .done then 2 else if s.stage = .fault then 3 else 1 := by
  rw [State.runCode]
  cases s.stage <;> rfl

/-- Settles O55: the two fields of `STATUS`, and the code of each fault (60_exceptions.md R321). -/
theorem rdstatus : Obligations.Rdstatus := by
  intro s run err
  have herr : (errNumber s.err).toNat = err := by
    simp only [err]
    cases s.err <;> rfl
  refine ⟨_, rfl, ?_, rfl⟩
  rw [State.hostRead_hostData, BitVec.toNat_setWidth_of_le (by omega), s.toNat_statusWord, s.toNat_runCode, herr]

/-! ### Host accesses that are no command -/

/-- A word read at an offset that is neither `STATUS` nor a word of `DIGEST` is no command (10_state.md R21). -/
theorem decodeHost_read32_noCommand {off : BitVec 32} (hstatus : off.toNat ≠ 0x0C)
    (hdigest : ¬ (0x20 ≤ off.toNat ∧ off.toNat < 0x40 ∧ off.toNat % 4 = 0)) :
    decodeHost (.read32 off) = .error .noCommand :=
  (if_neg hstatus).trans (if_neg hdigest)

/-- A byte read outside `DIGEST` is no command (10_state.md R21). -/
theorem decodeHost_read8_noCommand {off : BitVec 32} (h : off.toNat < 0x20 ∨ 0x40 ≤ off.toNat) :
    decodeHost (.read8 off) = .error .noCommand :=
  if_neg (by omega)

/-- A byte written below `IN` is no command (log 18). -/
theorem decodeHost_write8_noCommand {off : BitVec 32} {d : Byte} (h : off.toNat < 0x1000) :
    decodeHost (.write8 off d) = .error .noCommand :=
  if_neg (Nat.not_le.2 h)

/-- A 0 written to `CTRL.START` is no command (10_state.md R21, U10). -/
theorem decodeHost_write32_ctrl_zero {off : BitVec 32} {d : Half} (hoff : off.toNat = 0) (hd : d.toNat % 2 = 0) :
    decodeHost (.write32 off d) = .error .noCommand := by
  have hbit : d.getLsbD 0 = false := by
    simp [BitVec.getLsbD, hd]
  rw [decodeHost, if_pos hoff, hbit]
  rfl

/-- A word written where no register takes it is no command (10_state.md R21, U19; log 18). -/
theorem decodeHost_write32_noRegister {off : BitVec 32} {d : Half}
    (h : (8 < off.toNat ∧ off.toNat < 0x1000) ∨ off.toNat % 4 ≠ 0) :
    decodeHost (.write32 off d) = .error .noCommand := by
  rw [decodeHost, if_neg (by omega), if_neg (by omega), if_neg (by omega), if_neg (by rw [inBase]; omega)]

/-- The list of the inputs without its head. -/
theorem takeInput_of_cons {s : State} {x : Input} {rest : List Input} (h : s.inputs = x :: rest) :
    s.takeInput = { s with inputs := rest } := by
  rw [State.takeInput, h, List.tail_cons]

/-- A read of `CTRL` (10_state.md R21). -/
theorem State.otherAccess_read32_ctrl {off : BitVec 32} (s : State) (h : off.toNat = 0) :
    s.otherAccess (.read32 off) = s.hostRead 0 :=
  if_pos (BitVec.eq_of_toNat_eq h)

/-- A word read at rest, where the window has one (47_finalize_host.md R298). -/
theorem State.otherAccess_read32_window {s : State} {off : BitVec 32} {v : Half} (hrest : s.busy = false)
    (h0 : off.toNat ≠ 0) (hv : s.windowRead off.toNat = some v) :
    s.otherAccess (.read32 off) = s.hostRead (BitVec.ofNat 64 v.toNat) := by
  have hoff : off ≠ 0 := fun h => h0 (congrArg BitVec.toNat h)
  simp only [State.otherAccess, if_neg hoff, hrest, hv, Bool.false_eq_true, if_false, BitVec.ofNat_toNat]

/-- A word read while `BUSY`, or where the window has none, is unspecified (60_exceptions.md R336, U19). -/
theorem State.otherAccess_read32_free {s : State} {off : BitVec 32} (h0 : off.toNat ≠ 0)
    (h : s.busy = true ∨ s.windowRead off.toNat = none) : s.otherAccess (.read32 off) = s.freeRead 32 := by
  have hoff : off ≠ 0 := fun h => h0 (congrArg BitVec.toNat h)
  simp only [State.otherAccess, if_neg hoff]
  split
  · rfl
  · rename_i hb
    rw [h.resolve_left hb]

/-- The window has no word but `MODE`, `LEN` and those of `IN` (10_state.md R21). -/
theorem State.windowRead_none {s : State} {off : Nat} (hmode : off ≠ 4) (hlen : off ≠ 8)
    (hin : off < 0x1000 ∨ 0x1000 + s.params.inCap < off + 4 ∨ off % 4 ≠ 0) : s.windowRead off = none := by
  rw [State.windowRead, if_neg hmode, if_neg hlen, if_neg (by rw [inBase]; omega)]

/-- A byte read while `BUSY`, or outside `IN`, is unspecified (60_exceptions.md R336, U19). -/
theorem State.otherAccess_read8_free {s : State} {off : BitVec 32}
    (h : s.busy = true ∨ off.toNat < 0x1000 ∨ 0x1000 + s.params.inCap ≤ off.toNat) :
    s.otherAccess (.read8 off) = s.freeRead 8 := by
  refine if_neg fun ⟨hrest, hlo, hhi⟩ => ?_
  rcases h with hb | h
  · rw [hb] at hrest
    cases hrest
  · rw [inBase] at hlo hhi
    omega

/-- A write that is no command has no effect (U10, U19). -/
theorem step_of_write_noCommand {s : State} {a : HostAccess} {rest : List Input} (hin : s.inputs = .access a :: rest)
    (hc : decodeHost a = .error .noCommand) (ha : s.takeInput.otherAccess a = s.takeInput) :
    step s = .next { s with inputs := rest } := by
  rw [step_of_noCommand hin hc, ha, takeInput_of_cons hin]

/-- A read that is no command, with a specified value. -/
theorem step_of_hostRead {s : State} {a : HostAccess} {rest : List Input} {v : Word} (hin : s.inputs = .access a :: rest)
    (hc : decodeHost a = .error .noCommand) (ha : s.takeInput.otherAccess a = s.takeInput.hostRead v) :
    step s = .next { s with inputs := rest, hostData := v } := by
  rw [step_of_noCommand hin hc, ha, takeInput_of_cons hin, State.hostRead]

/-- A read that is no command, with an unspecified value (log 5). -/
theorem step_of_freeRead {s : State} {a : HostAccess} {rest : List Input} {n : Nat} (hin : s.inputs = .access a :: rest)
    (hc : decodeHost a = .error .noCommand) (ha : s.takeInput.otherAccess a = s.takeInput.freeRead n) :
    ∃ v, step s = .next { s with inputs := rest, hostData := v, freeCtr := s.freeCtr + 1 } :=
  ⟨_, by rw [step_of_noCommand hin hc, ha, takeInput_of_cons hin, State.freeRead]⟩

/-! ### Refused reads -/

/-- `RDDIGEST` outside `DONE` (60_exceptions.md R337). -/
theorem exec_rddigest_refused {s : State} (h : s.stage ≠ .done) (d : DigestRef) :
    ∃ n, exec (.rddigest d) s = .next (s.freeRead n) := by
  cases d with
  | byte k => exact ⟨8, congrArg Host.Outcome.next (if_neg h)⟩
  | word w => exact ⟨32, congrArg Host.Outcome.next (if_neg h)⟩

/-- `PADRD` while `BUSY` (60_exceptions.md R336). -/
theorem exec_padrd_of_busy {s : State} (h : s.busy = true) (k : BitVec 32) :
    exec (.padrd k) s = .next (s.freeRead 64) :=
  if_pos h

/-- Settles O54: each refused read is a free read, the two commands by their own guard, the accesses of the window because they
are no command and the window gives no value. -/
theorem refusedReads : Obligations.RefusedReads := by
  refine ⟨fun s d k => ⟨fun hdone => ?_, fun hb => ⟨_, exec_padrd_of_busy hb k⟩⟩, fun s off rest hin h => ?_,
    fun s off rest hin h => ?_⟩
  · obtain ⟨n, hread⟩ := exec_rddigest_refused hdone d
    exact ⟨_, hread⟩
  · refine step_of_freeRead hin (decodeHost_read32_noCommand (by omega) (by omega))
      (State.otherAccess_read32_free (s := s.takeInput) (by omega) ?_)
    rcases h with ⟨hb, -⟩ | h
    · exact .inl hb
    · exact .inr (State.windowRead_none (by omega) (by omega) (by rw [State.takeInput_params]; omega))
  · refine step_of_freeRead hin (decodeHost_read8_noCommand (by omega))
      (State.otherAccess_read8_free (s := s.takeInput) ?_)
    rcases h with ⟨hb, -⟩ | h
    · exact .inl hb
    · exact .inr (by rw [State.takeInput_params]; omega)

/-! ### Writes -/

/-- Settles O53: the commands by their guard (60_exceptions.md R336), the other writes as accesses that are no command. -/
theorem busyRefusesWrites : Obligations.BusyRefusesWrites := by
  refine ⟨fun s ver padded n d k w hb => ?_, fun s off d rest hin h => ?_, fun s off d rest hin h => ?_⟩
  · have hrefused : ∀ f, Host.Outcome.next (s.hostWrite f) = (.next s : Result) := fun f =>
      congrArg Host.Outcome.next (State.hostWrite_of_busy hb f)
    refine ⟨hrefused _, hrefused _, hrefused _, ?_, if_pos hb⟩
    cases d with
    | byte _ _ => exact hrefused _
    | word _ _ => exact hrefused _
  · refine step_of_write_noCommand hin ?_ rfl
    rcases h with ⟨hoff, hd⟩ | h
    · exact decodeHost_write32_ctrl_zero hoff hd
    · exact decodeHost_write32_noRegister h
  · exact step_of_write_noCommand hin (decodeHost_write8_noCommand h) rfl

/-- Settles O56: the writes are accepted at rest, and the three registers are read back as the window has them. -/
theorem writeModeLen : Obligations.WriteModeLen := by
  refine ⟨fun s ver padded n hrest => ⟨congrArg Host.Outcome.next (State.hostWrite_of_rest hrest _),
    congrArg Host.Outcome.next (State.hostWrite_of_rest hrest _)⟩, fun s off rest hrest hin => ?_⟩
  have hread {v : Half} (hoff : off.toNat = 4 ∨ off.toNat = 8) (hv : s.takeInput.windowRead off.toNat = some v) :
      step s = .next { s with inputs := rest, hostData := BitVec.ofNat 64 v.toNat } :=
    step_of_hostRead hin (decodeHost_read32_noCommand (by omega) (by omega))
      (State.otherAccess_read32_window (s := s.takeInput) hrest (by omega) hv)
  refine ⟨fun hoff => ?_, fun hoff => ?_, fun hoff => ?_⟩
  · exact step_of_hostRead hin (decodeHost_read32_noCommand (by omega) (by omega))
      (State.otherAccess_read32_ctrl s.takeInput hoff)
  · rw [← s.toNat_modeWord]
    exact hread (.inl hoff) (if_pos hoff)
  · exact hread (.inr hoff) ((if_neg (by omega)).trans (if_pos hoff))

/-! ### The stops -/

/-- The scratchpad port beyond the version's scratchpad (U20, log 15). -/
theorem exec_padPort_padRange {s : State} (hrest : s.busy = false) {k : BitVec 32} (hk : hostPadWords s.ver ≤ k.toNat)
    (w : Word) : exec (.padrd k) s = .fault .padRange ∧ exec (.padwr k w) s = .fault .padRange := by
  have hb : ¬ s.busy = true := by simp [hrest]
  exact ⟨(if_neg hb).trans (if_neg (Nat.not_lt.2 hk)), (if_neg hb).trans (if_neg (Nat.not_lt.2 hk))⟩

/-- The step of `STEP2` with any entry, beyond the range of its position or its cursor (45_v2_mix.md R222, log 16). -/
theorem v2Step_seqRange (entry : MixOperands → Word) {s : State} (h : 27456 ≤ s.jNat ∨ 54912 ≤ s.r.toNat) :
    v2Step entry s = .fault .seqRange :=
  if_neg (by rw [half2, words2]; omega)

/-- The step of `STEP3` with any entry, beyond the range of its cursor (46_v3_mix.md R251, log 16). -/
theorem v3Step_seqRange (entry : MixOperands → Word) {s : State} (h : 67968 ≤ s.r.toNat) :
    v3Step entry s = .fault .seqRange :=
  if_neg (Nat.not_lt.2 h)

/-- The versions without a ChaCha8 fill (00_scope.md R5). -/
theorem not_mixVer_of_or {ver : BitVec 2} (h : ver = 0 ∨ ver = 1) : ¬ mixVer ver = true := by
  rcases h with rfl | rfl <;> decide

/-- Settles O60: each stop is the last branch of its operation's guard. -/
theorem stops : Obligations.Stops := by
  refine ⟨fun s k w hrest hver hk => exec_padPort_padRange hrest ?_ w, fun s hi => if_neg (Nat.not_le.2 hi),
    fun s hj => if_neg (Nat.not_le.2 hj), fun s h => v2Step_seqRange _ h, fun s h => v3Step_seqRange _ h,
    fun s hver hi => ?_, fun s hver => ?_⟩
  · rwa [hostPadWords, if_neg hver]
  · exact (if_pos (mixVer_of_or hver)).trans (if_neg (Nat.not_lt.2 hi))
  · have hmix := not_mixVer_of_or hver
    exact ⟨if_neg hmix, if_neg hmix, if_neg hmix, if_neg hmix⟩

end Sys2Proof.Machine

/-! The statements on the scratchpad (20_memory.md): the three views of a word and what a write through each of them changes,
the one access that stops a step, and the address helpers of v3. -/

namespace Sys2Proof.Machine

/-! ### The 32-bit view -/

/-- A field within a field of a word. -/
theorem extract_extract {n a l b m : Nat} (x : BitVec n) (h : b + m ≤ l) :
    (x.extractLsb' a l).extractLsb' b m = x.extractLsb' (a + b) m := by
  ext i hi
  rw [BitVec.getElem_extractLsb', BitVec.getElem_extractLsb', BitVec.getLsbD_extractLsb', decide_eq_true (by omega),
    Bool.true_and, Nat.add_assoc]

/-- `PAD32[2k + h]` is half `h` of `PAD64[k]` (20_memory.md R63). -/
theorem State.pad32_eq_extract_pad64 (s : State) (k : Nat) {h : Nat} (hh : h < 2) :
    s.pad32 (2 * k + h) = (s.pad64 k).extractLsb' (32 * h) 32 := by
  refine eq_of_bytes (n := 4) fun m hm => ?_
  have hbyte : ((s.pad64 k).extractLsb' (32 * h) 32).extractLsb' (8 * m) 8 =
      (s.pad64 k).extractLsb' (8 * (4 * h + m)) 8 := by
    rw [extract_extract _ (by omega), show 32 * h + 8 * m = 8 * (4 * h + m) by omega]
  rw [State.pad32_byte s _ hm, hbyte, State.pad64_byte s k (by omega)]
  exact congrArg s.pad.read (by omega)

theorem State.pad32_even (s : State) (k : Nat) : s.pad32 (2 * k) = (s.pad64 k).extractLsb' 0 32 :=
  s.pad32_eq_extract_pad64 k (h := 0) (by omega)

theorem State.pad32_odd (s : State) (k : Nat) : s.pad32 (2 * k + 1) = (s.pad64 k).extractLsb' 32 32 :=
  s.pad32_eq_extract_pad64 k (h := 1) (by omega)

/-- Settles O17: the bytes by `State.pad64_byte`, the halves byte by byte. -/
theorem padViews : Obligations.PadViews :=
  ⟨fun s k _ hm => (s.pad64_byte k hm).symm, State.pad32_even, State.pad32_odd⟩

/-! ### Writes through a view -/

/-- A word written changes no byte outside it (20_memory.md R64). -/
theorem State.setPad64_padSameOutside (s : State) (k : Nat) (w : Word) : PadSameOutside k s (s.setPad64 k w) :=
  fun a ha => by rw [State.read_setPad64, if_neg (by omega)]

/-- What a byte reads as after one byte is written (20_memory.md R64). -/
theorem State.read_setPadBytes_singleton (s : State) (a : Nat) (b : Byte) (x : Nat) :
    (s.setPadBytes a [b]).pad.read x = if x = a then b else s.pad.read x := by
  rw [State.read_setPadBytes, List.length_singleton]
  by_cases hx : x = a
  · rw [if_pos (by omega), if_pos hx, hx, Nat.sub_self, List.getD_cons_zero]
  · rw [if_neg (by omega), if_neg hx]

/-- Settles O18: each write by what it leaves in a byte, the halves of a word as the two `PAD32` that they are. -/
theorem padWrites : Obligations.PadWrites := by
  intro s
  refine ⟨fun k w => ⟨?_, s.setPad64_padSameOutside k w⟩, fun k x => ⟨?_, fun a ha => ?_⟩, fun k x => ⟨?_, ?_⟩,
    fun k x => ⟨?_, ?_⟩, fun k m b _ => ⟨?_, fun a ha => ?_⟩⟩
  · rw [State.pad64_setPad64, if_pos rfl]
  · rw [State.pad32_setPad32, if_pos rfl]
  · rw [State.read_setPad32, if_neg (by omega)]
  · rw [← State.pad32_even, State.pad32_setPad32, if_pos rfl]
  · rw [← State.pad32_odd, ← State.pad32_odd, State.pad32_setPad32, if_neg (by omega)]
  · rw [← State.pad32_odd, State.pad32_setPad32, if_pos rfl]
  · rw [← State.pad32_even, ← State.pad32_even, State.pad32_setPad32, if_neg (by omega)]
  · rw [State.read_setPadBytes_singleton, if_pos rfl]
  · rw [State.read_setPadBytes_singleton, if_neg ha]

/-! ### The helpers of v3 -/

/-- `map_index` on numbers (40_arith.md R128): the product with `HALF` stays below 2^128. -/
theorem mapIndex_eq (x : Word) :
    mapIndex x = ((x.toNat ^^^ x.toNat / 2 ^ 33) * 0xff51afd7ed558ccd % 2 ^ 64) * 33984 / 2 ^ 64 := by
  have hmix : ((x ^^^ x >>> 33) * 0xff51afd7ed558ccd).toNat =
      (x.toNat ^^^ x.toNat / 2 ^ 33) * 0xff51afd7ed558ccd % 2 ^ 64 := toNat_xorShift_mul x 0xff51afd7ed558ccd 33
  rw [← hmix, mapIndex, mapIndexIn, toNat_high64, BitVec.toNat_mul, toNat_u128, BitVec.toNat_ofNat]
  generalize (x ^^^ x >>> 33) * 0xff51afd7ed558ccd = y
  have hy := y.isLt
  rw [half3, Nat.mod_eq_of_lt (show 33984 < 2 ^ 128 by omega), Nat.mod_eq_of_lt (by omega)]

/-- `murmurhash3` on numbers (40_arith.md R127). -/
theorem toNat_murmurhash3 (x : Word) :
    let x1 := (x.toNat ^^^ x.toNat / 2 ^ 55) * 0xff51afd7ed558ccd % 2 ^ 64
    let x2 := (x1 ^^^ x1 / 2 ^ 32) * 0xc4ceb9fe1a85ec53 % 2 ^ 64
    (murmurhash3 x).toNat = x2 ^^^ x2 / 2 ^ 15 := by
  intro x1 x2
  rw [murmurhash3, toNat_xorShift, toNat_xorShift_mul, toNat_xorShift_mul]
  rfl

/-- `pick_half` on numbers (40_arith.md R129). -/
theorem pickHalf_iff (x : Word) : pickHalf x = true ↔ (murmurhash3 x).toNat / 2 ^ 58 % 2 = 1 := by
  rw [pickHalf, BitVec.getLsbD, Nat.testBit_eq_decide_div_mod_eq, decide_eq_true_iff]

/-- Settles O20: the mixing steps on numbers, and `pick_half` as a bit of the mixed number. -/
theorem v3Helpers : Obligations.V3Helpers := by
  intro x
  refine ⟨⟨mapIndex_eq x, mapIndex_lt x⟩, toNat_murmurhash3 x, ?_⟩
  rw [pickHalf_iff, toNat_murmurhash3]

/-! ### The one access that stops a step -/

/-- The command is an access to a scratchpad word that does not exist, with the engine at rest (U20, log 15). -/
def MissingPadWord (c : Instr) (s : State) : Prop :=
  s.busy = false ∧ ∃ k, hostPadWords s.ver ≤ k.toNat ∧ (c = .padrd k ∨ ∃ w, c = .padwr k w)

/-- A word of the scratchpad port is there, the engine is busy, or the access is the one that stops. -/
theorem exec_padPort_cases (k : BitVec 32) (w : Word) (s : State) :
    ((∃ t, exec (.padrd k) s = .next t) ∧ ∃ t, exec (.padwr k w) s = .next t) ∨
      (s.busy = false ∧ hostPadWords s.ver ≤ k.toNat) := by
  cases hb : s.busy with
  | true => exact .inl ⟨⟨_, if_pos hb⟩, ⟨_, if_pos hb⟩⟩
  | false =>
    have hrest : ¬ s.busy = true := by simp [hb]
    by_cases hk : k.toNat < hostPadWords s.ver
    · exact .inl ⟨⟨_, (if_neg hrest).trans (if_pos hk)⟩, ⟨_, (if_neg hrest).trans (if_pos hk)⟩⟩
    · exact .inr ⟨rfl, Nat.le_of_not_lt hk⟩

/-- A host command answers a next state, or is the access that stops (47_finalize_host.md R295, R303, R304). -/
theorem exec_command_next_or_padRange {c : Instr} (hc : c.isHostCommand = true) (s : State) :
    (∃ t, exec c s = .next t) ∨ (exec c s = .fault .padRange ∧ MissingPadWord c s) := by
  cases c with
  | start | wrmode | wrlen | rdstatus => exact .inl ⟨_, rfl⟩
  | wrin d => cases d with
    | byte | word => exact .inl ⟨_, rfl⟩
  | rddigest d => cases d with
    | byte | word => exact .inl ⟨_, rfl⟩
  | padrd k =>
    rcases exec_padPort_cases k 0 s with ⟨hread, -⟩ | ⟨hrest, hk⟩
    · exact .inl hread
    · exact .inr ⟨(exec_padPort_padRange hrest hk 0).1, hrest, k, hk, .inl rfl⟩
  | padwr k w =>
    rcases exec_padPort_cases k w s with ⟨-, hwrite⟩ | ⟨hrest, hk⟩
    · exact .inl hwrite
    · exact .inr ⟨(exec_padPort_padRange hrest hk w).2, hrest, k, hk, .inr ⟨w, rfl⟩⟩
  | _ => cases hc

/-- `PADRD` and `PADWR` are selected by the accesses of the scratchpad port alone (30_encoding.md R97). -/
theorem access_of_decodeHost_padPort {a : HostAccess} {k : BitVec 32} :
    (decodeHost a = .ok (.padrd k) → a = .padRead k) ∧
      ∀ w, decodeHost a = .ok (.padwr k w) → a = .padWrite k w := by
  refine ⟨fun h => ?_, fun w h => ?_⟩
  all_goals
    cases a
    all_goals
      simp only [decodeHost] at h
      repeat' split at h
    all_goals cases h
    all_goals rfl

/-- A step in which the host makes an access. -/
theorem step_access_next_or_padRange {s : State} {a : HostAccess} {rest : List Input}
    (hin : s.inputs = .access a :: rest) :
    (∃ t, step s = .next t) ∨ (step s = .fault .padRange ∧ s.busy = false ∧
      ∃ k, hostPadWords s.ver ≤ k.toNat ∧ (a = .padRead k ∨ ∃ w, a = .padWrite k w)) := by
  cases hd : decodeHost a with
  | error e => exact .inl ⟨_, step_of_noCommand hin hd⟩
  | ok c =>
    rw [step_of_command hin hd]
    rcases exec_command_next_or_padRange (decodeHost_isHostCommand hd) s.takeInput with
      hnext | ⟨hfault, hrest, k, hk, hc⟩
    · exact .inl hnext
    · refine .inr ⟨hfault, hrest, k, hk, ?_⟩
      rcases hc with rfl | ⟨w, rfl⟩
      · exact .inl (access_of_decodeHost_padPort.1 hd)
      · exact .inr ⟨w, access_of_decodeHost_padPort.2 w hd⟩

/-- A step in which the sequencer moves, or rests, answers a next state in a run. -/
theorem RunInv.step_sequencer_next {s : State} (h : RunInv s) (hsel : s.nextSelector = s.seqSelector) :
    ∃ t, step s = .next t := by
  cases hb : s.busy with
  | true =>
    obtain ⟨t, ht, -, -⟩ := h.step_progress hb hsel
    exact ⟨t, ht⟩
  | false => exact ⟨_, step_of_rest hb hsel⟩

/-- Settles O8: one case for each move of the host's list (log 6); an access alone can stop. -/
theorem stepNeverStops : Obligations.StepNeverStops := by
  intro s h
  cases hin : s.inputs with
  | nil => exact .inl (h.step_sequencer_next (by simp [State.nextSelector, hin]))
  | cons x rest =>
    cases x with
    | tick => exact .inl (h.step_sequencer_next (by simp [State.nextSelector, hin]))
    | reset => exact .inl ⟨s.noOperation, by simp only [step, State.fetch, State.nextSelector, hin]⟩
    | access a =>
      rcases step_access_next_or_padRange hin with hnext | ⟨hfault, hrest, k, hk, ha⟩
      · exact .inl hnext
      · refine .inr ⟨hfault, hrest, k, rest, hk, ?_⟩
        rcases ha with rfl | ⟨w, rfl⟩
        · exact .inl rfl
        · exact .inr ⟨w, rfl⟩

end Sys2Proof.Machine

/-! The statements on the encoding (30_encoding.md): a selector decodes to the operation it is the encoding of, or to the
reason why it names none, and the nibble of a mix step selects the operation that the step executes. -/

namespace Sys2Proof.Machine

/-! ### The registers that a host command writes or reads -/

/-- The word of a `WRMODE` holds both of its operands (30_encoding.md R97, 10_state.md R21). -/
theorem mode_fields (ver : BitVec 2) (padded : Bool) :
    let d : Half := ver.setWidth 32 ||| (if padded then 4 else 0)
    d.extractLsb' 0 2 = ver ∧ d.getLsbD 2 = padded := by
  revert ver padded
  decide

/-- The offset of a register from `base` on, where it is one of the window (10_state.md R21). -/
theorem toNat_offset {base k : Nat} (h : base + k < 2 ^ 32) : (BitVec.ofNat 32 (base + k)).toNat = base + k :=
  Nat.mod_eq_of_lt h

theorem decodeHost_wrmode (ver : BitVec 2) (padded : Bool) :
    decodeHost (.write32 0x04 (ver.setWidth 32 ||| (if padded then 4 else 0))) = .ok (.wrmode ver padded) := by
  obtain ⟨hver, hpadded⟩ := mode_fields ver padded
  rw [decodeHost, if_neg (by decide), if_pos (by decide), hver, hpadded]

theorem decodeHost_wrin_byte {k : BitVec 32} (h : inBase + k.toNat < 2 ^ 32) (b : Byte) :
    decodeHost (.write8 (BitVec.ofNat 32 (inBase + k.toNat)) b) = .ok (.wrin (.byte k b)) := by
  rw [decodeHost, toNat_offset h, if_pos (Nat.le_add_right _ _), Nat.add_sub_cancel_left, BitVec.ofNat_toNat,
    BitVec.setWidth_eq]

theorem decodeHost_wrin_word {w : BitVec 30} (h : inBase + 4 * w.toNat < 2 ^ 32) (v : Half) :
    decodeHost (.write32 (BitVec.ofNat 32 (inBase + 4 * w.toNat)) v) = .ok (.wrin (.word w v)) := by
  rw [decodeHost, toNat_offset h, inBase, if_neg (by omega), if_neg (by omega), if_neg (by omega), if_pos (by omega),
    Nat.add_sub_cancel_left, Nat.mul_div_cancel_left _ (by omega), BitVec.ofNat_toNat, BitVec.setWidth_eq]

theorem decodeHost_rddigest_byte (k : BitVec 5) :
    decodeHost (.read8 (BitVec.ofNat 32 (0x20 + k.toNat))) = .ok (.rddigest (.byte k)) := by
  have hk := k.isLt
  rw [decodeHost, toNat_offset (by omega), if_pos (by omega), Nat.add_sub_cancel_left, BitVec.ofNat_toNat,
    BitVec.setWidth_eq]

theorem decodeHost_rddigest_word (w : BitVec 3) :
    decodeHost (.read32 (BitVec.ofNat 32 (0x20 + 4 * w.toNat))) = .ok (.rddigest (.word w)) := by
  have hw := w.isLt
  rw [decodeHost, toNat_offset (by omega), if_neg (by omega), if_pos (by omega), Nat.add_sub_cancel_left,
    Nat.mul_div_cancel_left _ (by omega), BitVec.ofNat_toNat, BitVec.setWidth_eq]

/-- Settles O2: the commands whose operands are packed into an access by the register they use, every other operation by
its code. -/
theorem decodeEncode : Obligations.DecodeEncode := by
  intro c hwf
  cases c with
  | wrmode ver padded => exact decodeHost_wrmode ver padded
  | wrin d => cases d with
    | byte k b => exact decodeHost_wrin_byte (of_decide_eq_true hwf) b
    | word w v => exact decodeHost_wrin_word (of_decide_eq_true hwf) v
  | rddigest d => cases d with
    | byte k => exact decodeHost_rddigest_byte k
    | word w => exact decodeHost_rddigest_word w
  | _ => rfl

/-! ### The nibble of a mix step -/

/-- The v1 nibble on numbers (30_encoding.md R93). -/
theorem toNat_v1Nibble (result : Word) (j : Nat) : (v1Nibble result j).toNat = result.toNat / 2 ^ (2 * j) % 16 := by
  rw [v1Nibble, BitVec.extractLsb'_toNat, Nat.shiftRight_eq_div_pow]

/-- The v2 and v3 nibble on numbers (30_encoding.md R94). -/
theorem toNat_mixNibble (result c : Word) : (mixNibble result c).toNat = natRotl result.toNat c.toNat % 16 := by
  rw [mixNibble, BitVec.extractLsb'_toNat, Nat.shiftRight_zero, toNat_rotl]

/-- The operation of a v1 table entry is the step of `BR1` with that entry (43_v1_mix.md R172; log 9). -/
theorem exec_tableEntry_v1Ops (nib : BitVec 4) (s : State) :
    exec (tableEntry v1Ops nib) s = v1Step (v1Table.get nib.toFin) s := by
  obtain ⟨k, hk⟩ := nib
  interval_cases k
  all_goals rfl

/-- The operation of a v2 table entry is the step of `STEP2` with that entry (45_v2_mix.md R222; log 9). -/
theorem exec_tableEntry_v2Ops (nib : BitVec 4) (s : State) :
    exec (tableEntry v2Ops nib) s = v2Step (v2Table.get nib.toFin) s := by
  obtain ⟨k, hk⟩ := nib
  interval_cases k
  all_goals rfl

/-- The operation of a v3 table entry is the step of `STEP3` with that entry (46_v3_mix.md R251; log 9). -/
theorem exec_tableEntry_v3Ops (nib : BitVec 4) (s : State) :
    exec (tableEntry v3Ops nib) s = v3Step (v3Table.get nib.toFin) s := by
  obtain ⟨k, hk⟩ := nib
  interval_cases k
  all_goals rfl

/-- Settles O32: the nibble is `v1Nibble`, and `v1Step_spec` says what the step with its entry does. -/
theorem br1Selects : Obligations.Br1Selects := by
  intro s nib hj hnib
  have hsel : nib = v1Nibble s.result s.jNat := BitVec.eq_of_toNat_eq (hnib.trans (toNat_v1Nibble _ _).symm)
  have hbr : exec .br1 s = v1Step (v1Table.get nib.toFin) s := by rw [hsel]; rfl
  obtain ⟨t, ht, heffect⟩ := v1Step_spec (v1Table.get nib.toFin) s hj
  exact ⟨hbr.trans (exec_tableEntry_v1Ops nib s).symm, t, _, hbr.trans ht, heffect⟩

/-- Settles O42: the nibble is `mixNibble`, and `v2Step_spec` says what the step with its entry does. -/
theorem step2Selects : Obligations.Step2Selects := by
  intro s nib hj hr hnib
  have hsel : nib = mixNibble s.result s.v2Operands.c := BitVec.eq_of_toNat_eq (hnib.trans (toNat_mixNibble _ _).symm)
  have hstep : exec .step2 s = v2Step (v2Table.get nib.toFin) s := by rw [hsel]; rfl
  obtain ⟨t, ht, heffect⟩ := v2Step_spec (v2Table.get nib.toFin) s hj hr
  exact ⟨hstep.trans (exec_tableEntry_v2Ops nib s).symm, t, _, BitVec.isLt _, hstep.trans ht, heffect⟩

/-- Settles O47: the nibble is `mixNibble`, and `v3Step_spec` says what the step with its entry does. -/
theorem step3Selects : Obligations.Step3Selects := by
  intro s nib hj hr hnib
  have hsel : nib = mixNibble s.result s.v3Operands.c := BitVec.eq_of_toNat_eq (hnib.trans (toNat_mixNibble _ _).symm)
  have hstep : exec .step3 s = v3Step (v3Table.get nib.toFin) s := by rw [hsel]; rfl
  obtain ⟨t, ht, heffect⟩ := v3Step_spec (v3Table.get nib.toFin) s hj hr
  exact ⟨hstep.trans (exec_tableEntry_v3Ops nib s).symm, t, _, BitVec.isLt _, hstep.trans ht, heffect⟩

/-! ### Selectors that name no operation -/

/-- `VER = 0` names no branch table (30_encoding.md R92). -/
theorem decodeN4_versionZero {w : BitVec 6} (h : w.toNat < 16) : decodeN4 w = .error .versionZero := by
  have hver : (w.extractLsb' 4 2 : BitVec 2).toNat = 0 := by
    rw [BitVec.extractLsb'_toNat, Nat.shiftRight_eq_div_pow]
    omega
  simp only [decodeN4, hver]

/-- The resting stages execute nothing (30_encoding.md R96). -/
theorem decodeSeq_resting {w : BitVec 5} (h : w.toNat = 0 ∨ w.toNat = 21 ∨ w.toNat = 22) :
    decodeSeq w = .error .resting := by
  rcases h with h | h | h
  all_goals simp only [decodeSeq, h]

/-- Codes 23 to 31 name no stage (30_encoding.md R100). -/
theorem decodeSeq_reserved {w : BitVec 5} (h : 23 ≤ w.toNat) : decodeSeq w = .error .reservedStage := by
  rw [decodeSeq]
  split
  case h_24 => rfl
  all_goals omega

/-- Settles O1: the twelve words by their codes, the three ranges by the reason of each. -/
theorem decodeWords : Obligations.DecodeWords :=
  ⟨⟨rfl, rfl, rfl, rfl, rfl, rfl, rfl, rfl, rfl, rfl, rfl, rfl⟩, fun _ => decodeN4_versionZero,
    fun _ => decodeSeq_resting, fun _ => decodeSeq_reserved⟩

end Sys2Proof.Machine

/-! The statements on the arithmetic helpers (40_arith.md): the integer square root and the modular power. -/

namespace Sys2Proof.Machine

/-! ### The integer square root -/

/-- The loop's invariant: `root` is at most the square root of `n`, which is below `root + 2^k`; each pass halves the interval
`[root, root + 2^k)` and keeps the half that holds the square root, so after the last pass only the floor is left in it. -/
theorem isqrtLoop_floor {n k root : Nat} (hlow : root * root ≤ n) (hhigh : n < (root + 2 ^ k) * (root + 2 ^ k)) :
    isqrtLoop n k root * isqrtLoop n k root ≤ n ∧ n < (isqrtLoop n k root + 1) * (isqrtLoop n k root + 1) := by
  induction k generalizing root with
  | zero => exact ⟨hlow, hhigh⟩
  | succ k ih =>
    rw [isqrtLoop]
    by_cases htrial : (root + 2 ^ k) * (root + 2 ^ k) ≤ n
    · rw [if_pos htrial]
      refine ih htrial ?_
      rwa [Nat.add_assoc, ← Nat.two_mul, ← Nat.pow_succ']
    · rw [if_neg htrial]
      exact ih hlow (Nat.lt_of_not_le htrial)

/-- The loop of `isqrt` starts with the interval `[0, 2^32)`, which holds the square root of every word. -/
theorem isqrtLoop_toNat_floor (x : Word) :
    isqrtLoop x.toNat 32 0 * isqrtLoop x.toNat 32 0 ≤ x.toNat ∧
      x.toNat < (isqrtLoop x.toNat 32 0 + 1) * (isqrtLoop x.toNat 32 0 + 1) :=
  isqrtLoop_floor (Nat.zero_le _) (by have := x.isLt; omega)

/-- The root fits in a word: it is at most its square, which is at most `x`. -/
theorem toNat_isqrt (x : Word) : (isqrt x).toNat = isqrtLoop x.toNat 32 0 := by
  have hroot : isqrtLoop x.toNat 32 0 ≤ x.toNat := (Nat.le_mul_self _).trans (isqrtLoop_toNat_floor x).1
  rw [isqrt, BitVec.toNat_ofNat, Nat.mod_eq_of_lt (hroot.trans_lt x.isLt)]

/-- Settles O19: the loop's result is the floor, and it fits in a word. -/
theorem isqrtFloor : Obligations.IsqrtFloor := by
  intro n
  rw [toNat_isqrt]
  exact isqrtLoop_toNat_floor n

/-! ### The modular power -/

/-- `mulMod` on numbers (40_arith.md R130): the product of two words does not wrap in 128 bits. -/
theorem toNat_mulMod (x y : Word) {m : Word} (hm : 0 < m.toNat) : (mulMod x y m).toNat = x.toNat * y.toNat % m.toNat := by
  have hprod : x.toNat * y.toNat < 2 ^ 128 :=
    (Nat.mul_lt_mul'' x.isLt y.isLt).trans_eq (Nat.pow_add 2 64 64).symm
  have hmod : x.toNat * y.toNat % m.toNat < 2 ^ 64 := (Nat.mod_lt _ hm).trans m.isLt
  rw [mulMod, toNat_low64, BitVec.toNat_umod, BitVec.toNat_mul, toNat_u128, toNat_u128, toNat_u128,
    Nat.mod_eq_of_lt hprod, Nat.mod_eq_of_lt hmod]

/-- One pass of square-and-multiply keeps `res * b^e` modulo `m`. -/
theorem mul_pow_mod_square_multiply (res b e m : Nat) :
    (if e % 2 = 1 then res * b % m else res) * (b * b % m) ^ (e / 2) % m = res * b ^ e % m := by
  have hsquare : (b * b) ^ (e / 2) = b ^ (2 * (e / 2)) := by rw [← Nat.pow_two, ← Nat.pow_mul]
  have hdrop (r : Nat) : r * (b * b % m) ^ (e / 2) % m = r * b ^ (2 * (e / 2)) % m := by
    rw [Nat.mul_mod, ← Nat.pow_mod, ← Nat.mul_mod, hsquare]
  rw [hdrop]
  by_cases hodd : e % 2 = 1
  · have he : b ^ e = b * b ^ (2 * (e / 2)) := by rw [← Nat.pow_succ', Nat.succ_eq_add_one, show 2 * (e / 2) + 1 = e by omega]
    rw [if_pos hodd, Nat.mod_mul_mod, he, Nat.mul_assoc]
  · rw [if_neg hodd, show 2 * (e / 2) = e by omega]

/-- The accumulator after one pass of the loop, on numbers: bit 0 of the exponent says whether it is odd. -/
theorem toNat_ite_mulMod (res b e : Word) {m : Word} (hm : 0 < m.toNat) :
    (if e.getLsbD 0 then mulMod res b m else res).toNat =
      if e.toNat % 2 = 1 then res.toNat * b.toNat % m.toNat else res.toNat := by
  simp only [apply_ite BitVec.toNat, toNat_mulMod res b hm, BitVec.getLsbD, Nat.testBit_zero, decide_eq_true_eq]

/-- The loop multiplies a reduced `res` by `b^e` modulo `m`, given a pass for each bit of `e`. -/
theorem toNat_modpowLoop {m : Word} {fuel : Nat} {res b e : Word} (hres : res.toNat < m.toNat) (he : e.toNat < 2 ^ fuel) :
    (modpowLoop m fuel res b e).toNat = res.toNat * b.toNat ^ e.toNat % m.toNat := by
  have hm : 0 < m.toNat := Nat.zero_lt_of_lt hres
  induction fuel generalizing res b e with
  | zero =>
    rw [Nat.lt_one_iff.mp he, Nat.pow_zero, Nat.mul_one, Nat.mod_eq_of_lt hres]
    rfl
  | succ fuel ih =>
    rw [modpowLoop]
    by_cases hzero : e = 0
    · have hexp : e.toNat = 0 := congrArg BitVec.toNat hzero
      rw [if_pos hzero, hexp, Nat.pow_zero, Nat.mul_one, Nat.mod_eq_of_lt hres]
    · have hhalf : (e >>> 1).toNat = e.toNat / 2 := by rw [BitVec.toNat_ushiftRight, Nat.shiftRight_one]
      have hres' : (if e.getLsbD 0 then mulMod res b m else res).toNat < m.toNat := by
        rw [toNat_ite_mulMod res b e hm]
        split
        · exact Nat.mod_lt _ hm
        · exact hres
      rw [if_neg hzero, ih hres' (by omega), toNat_ite_mulMod res b e hm, toNat_mulMod b b hm, hhalf,
        mul_pow_mod_square_multiply]

/-- With a modulus of at least 2 no corner of `modpow` is met (40_arith.md R131). -/
theorem modpow_of_two_le (p : EngineParams) (base exp : Word) {mod : Word} (h : 2 ≤ mod.toNat) :
    modpow p base exp mod = modpowLoop mod 64 1 (base % mod) exp := by
  have hzero : mod ≠ 0 := by rintro rfl; exact absurd h (by decide)
  have hone : ¬(mod = 1 ∧ exp = 0) := by rintro ⟨rfl, -⟩; exact absurd h (by decide)
  rw [modpow, if_neg hzero, if_neg hone]

/-- Settles O21: the loop runs from `1` on the reduced base, with a pass for each of the exponent's 64 bits. -/
theorem modpowPower : Obligations.ModpowPower := by
  intro p base exp mod hmod
  have hone : (1 : Word).toNat < mod.toNat := hmod
  rw [modpow_of_two_le p base exp hmod, toNat_modpowLoop hone exp.isLt, BitVec.toNat_umod]
  calc (1 : Word).toNat * (base.toNat % mod.toNat) ^ exp.toNat % mod.toNat
      = (base.toNat % mod.toNat) ^ exp.toNat % mod.toNat := congrArg (· % mod.toNat) (Nat.one_mul _)
    _ = base.toNat ^ exp.toNat % mod.toNat := (Nat.pow_mod ..).symm

end Sys2Proof.Machine

/-! The statements on the v1 fill and the slot permutation (42_v1_fill_permute.md): the lanes that the input loads, the
rows that the fill writes, and what a chunk of the permutation does to the slots. -/

namespace Sys2Proof.Machine

/-! ### The slots' home -/

@[simp] theorem State.goto_pad32 (s : State) (st : Stage) (i j : Half) (k : Nat) :
    (s.goto st i j).pad32 k = s.pad32 k := rfl

/-- Settles O26: the copy is the state's own record of the 256 words. -/
theorem slotld : Obligations.Slotld := fun s =>
  ⟨_, rfl, fun k => by rw [State.goto_slots, Vector.get_ofFn], rfl⟩

/-- Settles O29: `State.pad32_setPad32s` for the slots' home, `State.read_setPad32s_outside` for the other bytes. -/
theorem slotwb : Obligations.Slotwb := by
  intro s
  refine ⟨_, rfl, fun k => ?_, fun a ha => ?_, ?_⟩
  · rw [State.goto_pad32, State.pad32_setPad32s, slotHome, if_pos (by omega), Nat.add_sub_cancel_left, regGet_val]
  · rw [State.goto_pad, State.read_setPad32s_outside _ _ _ _ (by omega)]
  · rw [State.setPad32s_eq]
    rfl

/-! ### The lanes that the input loads -/

/-- Byte `8k + m` of the input, zero from `LEN` on (42_v1_fill_permute.md R150). -/
theorem getD_lane_inBytes (s : State) (n k : Nat) {m : Nat} (hm : m < 8) :
    (((s.inBytes 0 n).drop (8 * k)).take 8).getD m 0 = if 8 * k + m < n then s.input.read (8 * k + m) else 0 := by
  have hread := Memory.getD_readBytes s.input 0 n (8 * k + m)
  rw [Nat.zero_add] at hread
  rw [← hread, State.inBytes, List.getD_eq_getElem?_getD, List.getElem?_take_of_lt hm, List.getElem?_drop,
    ← List.getD_eq_getElem?_getD]

/-- Settles O23: a byte of a lane is a byte of the input, by `extract_ofNat_leValue`. -/
theorem absorb : Obligations.Absorb := by
  intro s _
  refine ⟨_, rfl, fun k m hm => ?_, rfl⟩
  rw [State.goto_kstate, Vector.get_ofFn, extract_ofNat_leValue 64 _ (by omega), getD_lane_inBytes s _ _ hm]

/-! ### The fill -/

/-- The operation that the data selects has the value that the rule names (30_encoding.md R95). -/
theorem fillOp_fillSelect (left right : Word) : fillOp (fillSelect left right) left right = selectValue left right := by
  have hsel : (fillSelect left right).toNat = (left ^^^ right).toNat % 4 := by
    rw [fillSelect, BitVec.extractLsb'_toNat, Nat.shiftRight_zero]
  have hlt : (left ^^^ right).toNat % 4 < 4 := Nat.mod_lt _ (by decide)
  simp only [fillOp, hsel, selectValue]
  generalize (left ^^^ right).toNat % 4 = n at hlt
  interval_cases n <;> rfl

/-- Settles O25: each select is the pass of `KFILL` with its operation, `State.fillPass_spec`. -/
theorem fillSelects : Obligations.FillSelects := by
  intro s hi hj left right
  have hpass : ∀ op, ∃ t, fillStep op s = .next t ∧ FillEffect (op s.fillLeft s.fillRight) s t := fun op =>
    ⟨_, if_pos ⟨hi, hj⟩, State.fillPass_spec s op hi hj⟩
  exact ⟨hpass v1f0, hpass v1f1, hpass v1f2, hpass v1f3⟩

/-- What the passes from word `SEQ.J` to the end of its row leave (42_v1_fill_permute.md R151): each word chained to the
one before it, the first to `RAND`. -/
structure RowFilled (s t : State) : Prop where
  frame : t = { s with rand := t.rand, pad := t.pad, stage := t.stage, i := t.i, j := t.j }
  word : ∀ j, s.jNat ≤ j → j < rowLength s.iNat → t.pad64 (25 * s.iNat + j) =
    (regGet s.kstate j ^^^ (if j = s.jNat then s.rand else t.pad64 (25 * s.iNat + j - 1))) ^^^
      selectValue (regGet s.kstate (j + 1)) (regGet s.kstate (j + 2))
  outside : ∀ a, (a < 8 * (25 * s.iNat + s.jNat) ∨ 8 * (25 * s.iNat + rowLength s.iNat) ≤ a) →
    t.pad.read a = s.pad.read a
  rand : t.rand = t.pad64 (25 * s.iNat + rowLength s.iNat - 1)
  next : s.iNat < 1310 → t.stage = .v1Fill ∧ t.iNat = s.iNat + 1 ∧ t.j = 0
  last : s.iNat = 1310 → t.stage = .v1Slotld ∧ t.i = 0 ∧ t.j = 0

/-- A pass of the row with the operation that the data selects. -/
theorem State.fillSelected_spec {s : State} (hi : s.iNat ≤ 1310) (hj : s.jNat < rowLength s.iNat) :
    FillEffect (selectValue s.fillLeft s.fillRight) s s.fillSelected := by
  have h := State.fillPass_spec s (fillOp (fillSelect s.fillLeft s.fillRight)) hi hj
  rwa [fillOp_fillSelect] at h

/-- The last pass of a row. -/
theorem rowFilled_fillSelected {s : State} (hi : s.iNat ≤ 1310) (hj : s.jNat + 1 = rowLength s.iNat) :
    RowFilled s s.fillSelected := by
  obtain ⟨hframe, hrand, hword, hout, -, hnext, hlast⟩ := State.fillSelected_spec hi (by omega)
  refine ⟨hframe, fun j hlo hhi => ?_, fun a ha => hout a (by omega), ?_, hnext hj, hlast hj⟩
  · obtain rfl : j = s.jNat := by omega
    rw [hword, hrand, if_pos rfl, State.fillLeft, State.fillRight]
  · rw [← hword, ← hj, Nat.add_succ_sub_one]

/-- A pass before the passes of the rest of its row. -/
theorem RowFilled.cons {s t : State} (hi : s.iNat ≤ 1310) (hj : s.jNat + 1 < rowLength s.iNat)
    (h : RowFilled s.fillSelected t) : RowFilled s t := by
  obtain ⟨hframe, hrand, hword, hout, hnext, -, -⟩ := State.fillSelected_spec hi (Nat.lt_of_succ_lt hj)
  obtain ⟨-, hi', hj'⟩ := hnext hj
  have hinat : s.fillSelected.iNat = s.iNat := congrArg BitVec.toNat hi'
  have hk : s.fillSelected.kstate = s.kstate := by rw [hframe]
  obtain ⟨tframe, tword, tout, trand, tnext, tlast⟩ := h
  rw [hinat] at tword tout trand tnext tlast
  rw [hj'] at tword tout
  rw [hk] at tword
  have hfirst : t.pad64 (25 * s.iNat + s.jNat) = s.fillSelected.rand :=
    (State.pad64_congr fun m hm => tout _ (by omega)).trans hword
  refine ⟨?_, fun j hlo hhi => ?_, fun a ha => (tout a (by omega)).trans (hout a (by omega)), trand, tnext, tlast⟩
  · rw [hframe] at tframe
    exact tframe
  · rcases Nat.eq_or_lt_of_le hlo with rfl | hlt
    · rw [hfirst, hrand, if_pos rfl, State.fillLeft, State.fillRight]
    · rw [tword j hlt hhi, if_neg (show j ≠ s.jNat by omega)]
      split
      · rename_i heq
        rw [← hfirst, show 25 * s.iNat + j - 1 = 25 * s.iNat + s.jNat by omega]
      · rfl

/-- The passes from word `SEQ.J` to the end of its row. -/
theorem rowFilled_iterate (n : Nat) {s : State} (hi : s.iNat ≤ 1310) (hj : s.jNat + (n + 1) = rowLength s.iNat) :
    RowFilled s (iterate State.fillSelected (n + 1) s) := by
  induction n generalizing s with
  | zero => exact rowFilled_fillSelected hi hj
  | succ n ih =>
    have hlt : s.jNat + 1 < rowLength s.iNat := by omega
    obtain ⟨-, -, -, -, hnext, -, -⟩ := State.fillSelected_spec hi (Nat.lt_of_succ_lt hlt)
    obtain ⟨-, hi', hj'⟩ := hnext hlt
    have hinat : s.fillSelected.iNat = s.iNat := congrArg BitVec.toNat hi'
    exact RowFilled.cons hi hlt (ih (by rwa [hinat]) (by rw [hinat, hj']; omega))

/-- `KFILL` fills a row from its first word, with the lanes permuted once and nothing to chain to. -/
theorem exec_kfill_rowFilled {s : State} (hi : s.iNat ≤ 1310) :
    ∃ t, exec .kfill s = .next t ∧ RowFilled { s with kstate := keccakPerm s.kstate, rand := 0, j := 0 } t := by
  obtain ⟨n, hn⟩ : ∃ n, rowLength s.iNat = n + 1 := ⟨rowLength s.iNat - 1, by rw [rowLength]; split <;> rfl⟩
  refine ⟨_, if_pos hi, ?_⟩
  rw [hn]
  exact rowFilled_iterate n hi ((Nat.zero_add _).trans hn.symm)

/-- Settles O24: the row that `KFILL` fills, by `exec_kfill_rowFilled`. -/
theorem kfill : Obligations.Kfill := by
  intro s hi n lane
  obtain ⟨t, hexec, hframe, hword, hout, hrand, hnext, hlast⟩ := exec_kfill_rowFilled hi
  refine ⟨t, hexec, by rw [hframe], fun j hj => ?_, fun a ha => ?_, hrand, hnext, hlast, ?_⟩
  · simp only [lane, regGet_mod]
    exact hword j (Nat.zero_le j) hj
  · exact hout a (ha.imp (fun h => show a < 8 * (25 * s.iNat + 0) by omega)
      fun h => show 8 * (25 * s.iNat + n) ≤ a by omega)
  · rw [hframe]

/-! ### The signed sum of a chunk -/

/-- A chunk's word with the sign of its slot (42_v1_fill_permute.md R162 (c)). -/
def signedWord (slot word : Half) : Half := if slotSign slot then -word else word

theorem foldl_signed_eq_add_sum {α : Type} (l : List α) (slot word : α → Half) (acc : Half) :
    l.foldl (fun acc k => if (slot k).getLsbD 31 then acc - word k else acc + word k) acc =
      acc + (l.map fun k => signedWord (slot k) (word k)).sum := by
  induction l generalizing acc with
  | nil => exact (add_zero acc).symm
  | cons k l ih =>
    have hstep : (if (slot k).getLsbD 31 then acc - word k else acc + word k) = acc + signedWord (slot k) (word k) := by
      rw [signedWord, slotSign]
      split
      · exact sub_eq_add_neg acc (word k)
      · rfl
    rw [List.foldl_cons, ih, hstep, List.map_cons, List.sum_cons, add_assoc]

/-- The signed sum of the chunk as a sum over the slots, in any order. -/
theorem signedSum_eq_sum (s : State) (j : Nat) (slots : Vector Half 256) :
    signedSum s j slots = ∑ k : Fin 256, signedWord (slots.get k) (s.pad32 (256 * j + k.val)) := by
  rw [Fin.sum_univ_def, signedSum, foldl_signed_eq_add_sum, zero_add]

/-- A slot's new value changes the sum by the change of its own word's sign. -/
theorem signedSum_set (s : State) (j : Nat) (slots : Vector Half 256) (k : Fin 256) (x : Half) :
    signedSum s j (slots.set k.val x k.isLt) =
      signedSum s j slots - signedWord (slots.get k) (s.pad32 (256 * j + k.val)) +
        signedWord x (s.pad32 (256 * j + k.val)) := by
  have hget : ∀ l : Fin 256, (slots.set k.val x k.isLt).get l = if l = k then x else slots.get l := fun l => by
    rw [Vector.get_eq_getElem, Vector.getElem_set, Vector.get_eq_getElem]
    simp only [Fin.ext_iff, eq_comm]
  have hrest : ∀ l ∈ Finset.univ.erase k, signedWord ((slots.set k.val x k.isLt).get l) (s.pad32 (256 * j + l.val)) =
      signedWord (slots.get l) (s.pad32 (256 * j + l.val)) := fun l hl => by
    rw [hget, if_neg (Finset.ne_of_mem_erase hl)]
  rw [signedSum_eq_sum, signedSum_eq_sum, ← Finset.add_sum_erase _ _ (Finset.mem_univ k), Finset.sum_congr rfl hrest,
    ← Finset.add_sum_erase _ (fun l : Fin 256 => signedWord (slots.get l) _) (Finset.mem_univ k), hget, if_pos rfl]
  abel

/-- The correction of `TOTALSUM` is the change of the word's sign (42_v1_fill_permute.md R160). -/
theorem ite_slotSign_eq (total word slot new : Half) :
    (if slotSign new = slotSign slot then total
      else if slotSign new then total - 2 * word else total + 2 * word) =
      total - signedWord slot word + signedWord new word := by
  have htwo : 2 * word = word + word := BitVec.two_mul
  simp only [signedWord, htwo]
  cases slotSign slot <;> cases slotSign new
  all_goals
    simp only [Bool.true_eq_false, Bool.false_eq_true, if_true, if_false]
    abel

/-- A slot update keeps `TOTALSUM` the signed sum of the chunk (42_v1_fill_permute.md R160). -/
theorem slotUpdate_keeps_signedSum (s : State) {p : Vector Half 256 × Half} (h : p.2 = signedSum s s.jNat p.1)
    (k : Fin 256) : (slotUpdate s p k).2 = signedSum s s.jNat (slotUpdate s p k).1 := by
  simp only [slotUpdate, signedSum_set, ← h]
  exact ite_slotSign_eq ..

/-- Slot updates in any order keep `TOTALSUM` the signed sum of the chunk (42_v1_fill_permute.md R162 (c)). -/
theorem signedSum_of_foldl_slotUpdate {s : State} {visits : List (Fin 256)} {slots slots' : Vector Half 256}
    {total total' : Half} (hfold : (slots', total') = visits.foldl (slotUpdate s) (slots, total))
    (h : total = signedSum s s.jNat slots) : total' = signedSum s s.jNat slots' := by
  induction visits generalizing slots total with
  | nil =>
    obtain ⟨rfl, rfl⟩ := Prod.mk.inj hfold
    exact h
  | cons k _ ih => exact ih hfold (slotUpdate_keeps_signedSum s h k)

/-! ### The order of the reverse pass -/

/-- Taking the element at `pos` out of the first `n + 1` and putting the last of them in its place leaves the others. -/
theorem take_succ_perm_cons_take_set {α : Type} {l : List α} {n pos : Nat} (d : α) (hn : n < l.length)
    (hpos : pos ≤ n) :
    (l.take (n + 1)).Perm (l.getD pos d :: (l.set pos (l.getD n d)).take n) := by
  have htake : l.take (n + 1) = l.take n ++ [l.getD n d] := by
    rw [List.take_succ_eq_append_getElem hn, List.getD_eq_getElem _ _ hn]
  rw [htake]
  rcases Nat.eq_or_lt_of_le hpos with rfl | hlt
  · rw [List.take_set_of_le (Nat.le_refl _)]
    exact List.perm_append_singleton _ _
  · have hlen : pos < (l.take n).length := by rw [List.length_take]; omega
    have hget : l.getD pos d = (l.take n)[pos] := by
      rw [List.getElem_take, List.getD_eq_getElem]
    rw [List.take_set, hget]
    calc (l.take n ++ [l.getD n d]).Perm (l.getD n d :: l.take n) := List.perm_append_singleton _ _
      List.Perm _ (l.getD n d :: (l.take n)[pos] :: (l.take n).eraseIdx pos) :=
        (List.getElem_cons_eraseIdx_perm hlen).symm.cons _
      List.Perm _ ((l.take n)[pos] :: l.getD n d :: (l.take n).eraseIdx pos) := List.Perm.swap ..
      List.Perm _ ((l.take n)[pos] :: (l.take n).set pos (l.getD n d)) :=
        ((List.set_perm_cons_eraseIdx hlen _).symm).cons _

/-- The reverse pass visits the first `n` elements of `INDICES`, each once (42_v1_fill_permute.md R160). -/
theorem permVisits_perm_take (word : Nat → Nat) {n : Nat} {indices : List (Fin 256)} (h : n ≤ indices.length) :
    (permVisits word n indices).1.Perm (indices.take n) := by
  induction n generalizing indices with
  | zero => rw [List.take_zero]; rfl
  | succ n ih =>
    have hpos : word n % (n + 1) ≤ n := Nat.le_of_lt_succ (Nat.mod_lt _ (Nat.succ_pos n))
    have hrest := ih (indices := indices.set (word n % (n + 1)) (indices.getD n 0)) (by rw [List.length_set]; omega)
    exact (hrest.cons _).trans (take_succ_perm_cons_take_set 0 h hpos).symm

/-- The order of the visits has every slot once (42_v1_fill_permute.md R160). -/
theorem permVisits_perm_finRange (word : Nat → Nat) :
    (permVisits word 256 (List.finRange 256)).1.Perm (List.finRange 256) := by
  have h := permVisits_perm_take word (n := 256) (indices := List.finRange 256) (by rw [List.length_finRange])
  rwa [List.take_of_length_le (by rw [List.length_finRange])] at h

/-! ### The passes of `PERM` -/

/-- The register `INDICES` holds the list of slot numbers that the rule works on. -/
def IndicesHold (v : Vector Byte 256) (l : List (Fin 256)) : Prop :=
  l.length = 256 ∧ ∀ k, k < 256 → (regGet v k).toNat = (l.getD k 0).val

theorem IndicesHold.set {v : Vector Byte 256} {l : List (Fin 256)} (h : IndicesHold v l) {pos n : Nat} (hpos : pos < 256)
    (hn : n < 256) : IndicesHold (regSet v pos (regGet v n)) (l.set pos (l.getD n 0)) := by
  obtain ⟨hlen, hget⟩ := h
  refine ⟨by rw [List.length_set, hlen], fun k hk => ?_⟩
  rw [regGet_regSet, Nat.mod_eq_of_lt hk, Nat.mod_eq_of_lt hpos, List.getD_eq_getElem?_getD, List.getElem?_set]
  by_cases hkp : k = pos
  · rw [if_pos hkp, if_pos hkp.symm, if_pos (by omega), hget n hn, Option.getD_some]
  · rw [if_neg hkp, if_neg (Ne.symm hkp), ← List.getD_eq_getElem?_getD, hget k hk]

/-- `INDICES` starts as the slot numbers in order (42_v1_fill_permute.md R159). -/
theorem indicesHold_permPhase1 (s : State) : IndicesHold s.permPhase1.indices (List.finRange 256) := by
  refine ⟨List.length_finRange, fun k hk => ?_⟩
  have hk' : k < (List.finRange 256).length := by rwa [List.length_finRange]
  rw [regGet, State.permPhase1, Vector.get_ofFn, List.getD_eq_getElem _ _ hk', List.getElem_finRange]
  simp only [Fin.val_ofNat, BitVec.toNat_ofNat, Fin.val_cast]
  omega

theorem State.permPhase1_slots (s : State) : s.permPhase1.slots = s.slots := by
  simp only [State.permPhase1]

/-- Phase 1 leaves the signed sum of the chunk (42_v1_fill_permute.md R159). -/
theorem permPhase1_totalSum (s : State) : s.permPhase1.totalSum = signedSum s s.jNat s.slots := by
  have hstep : (fun acc (k : Fin 256) => s.permSum acc k.val) = fun acc k =>
      if (s.slots.get k).getLsbD 31 then acc - s.pad32 (256 * s.jNat + k.val)
      else acc + s.pad32 (256 * s.jNat + k.val) := by
    funext acc k
    rw [State.permSum, regGet_val, slotSign, State.chunkWord]
  rw [signedSum, ← hstep, State.permPhase1, ← List.map_coe_finRange_eq_range, List.foldl_map]

/-- A slot update reads the chunk's words alone. -/
theorem slotUpdate_congr {s t : State} (h : ∀ k, s.chunkWord k = t.chunkWord k) : slotUpdate s = slotUpdate t := by
  funext p k
  have hk : s.pad32 (256 * s.jNat + k.val) = t.pad32 (256 * t.jNat + k.val) := h k
  simp only [slotUpdate, hk]

/-- The two forms of the correction of `TOTALSUM` (42_v1_fill_permute.md R160). -/
theorem ite_and_not_eq_ite_eq {α : Type} (s1 s2 : Bool) (same neg pos : α) :
    (if s2 && !s1 then neg else if !s2 && s1 then pos else same) =
      if s2 = s1 then same else if s2 then neg else pos := by
  cases s1 <;> cases s2 <;> rfl

/-- An iteration of the reverse pass is the slot update at the index that it selects (42_v1_fill_permute.md R160). -/
theorem State.permPass_slotUpdate (s : State) (n : Nat) {index : Fin 256}
    (h : (regGet s.indices ((s.chunkWord n).toNat % (n + 1))).toNat = index.val) :
    ((s.permPass n).slots, (s.permPass n).totalSum) = slotUpdate s (s.slots, s.totalSum) index := by
  have hset : ∀ x, regSet s.slots index.val x = s.slots.set index.val x index.isLt := fun x => by
    simp only [regSet, Nat.mod_eq_of_lt index.isLt]
  have hword : s.pad32 (256 * s.jNat + index.val) = s.chunkWord index.val := rfl
  simp only [State.permPass, slotUpdate, h, regGet_val, hset, hword, ite_and_not_eq_ite_eq, slotSign]

theorem State.permPass_indices (s : State) (n : Nat) : (s.permPass n).indices =
    regSet s.indices ((s.chunkWord n).toNat % (n + 1)) (regGet s.indices n) := rfl

theorem State.permPass_chunkWord (s : State) (n k : Nat) : (s.permPass n).chunkWord k = s.chunkWord k := rfl

/-- The reverse pass is the slot updates in the order of `permVisits`, which also leaves its `INDICES`. -/
theorem State.permPhase2_visits {n : Nat} (hn : n ≤ 256) {s : State} {indices : List (Fin 256)}
    (h : IndicesHold s.indices indices) :
    let visits := permVisits (fun k => (s.chunkWord k).toNat) n indices
    ((State.permPhase2 n s).slots, (State.permPhase2 n s).totalSum) =
        visits.1.foldl (slotUpdate s) (s.slots, s.totalSum) ∧
      IndicesHold (State.permPhase2 n s).indices visits.2 := by
  induction n generalizing s indices with
  | zero => exact ⟨rfl, h⟩
  | succ n ih =>
    have hpos : (s.chunkWord n).toNat % (n + 1) < 256 := (Nat.mod_lt _ (Nat.succ_pos n)).trans_le hn
    have hnext : IndicesHold (s.permPass n).indices
        (indices.set ((s.chunkWord n).toNat % (n + 1)) (indices.getD n 0)) := by
      rw [s.permPass_indices]
      exact h.set hpos hn
    obtain ⟨-, hget⟩ := h
    obtain ⟨hslots, hindices⟩ := ih (Nat.le_of_lt hn) hnext
    rw [s.permPass_slotUpdate n (hget _ hpos), slotUpdate_congr (s.permPass_chunkWord n)] at hslots
    exact ⟨hslots, hindices⟩

/-- What `PERM` leaves (42_v1_fill_permute.md R158): the slot updates in the order of `permVisits`, and the next
position. -/
theorem exec_perm_visits {s : State} (hj : s.jNat ≤ 255) {visits : List (Fin 256) × List (Fin 256)}
    (hvisits : visits = permVisits (fun k => (s.chunkWord k).toNat) 256 (List.finRange 256)) :
    ∃ slots indices total,
      exec .perm s = .next (State.permNext { s with slots := slots, indices := indices, totalSum := total }) ∧
      (slots, total) = visits.1.foldl (slotUpdate s) (s.slots, signedSum s s.jNat s.slots) ∧
      IndicesHold indices visits.2 := by
  obtain ⟨slots, indices, total, hperm⟩ := s.perm_eq 256
  obtain ⟨hslots, hindices⟩ := State.permPhase2_visits (Nat.le_refl 256) (indicesHold_permPhase1 s)
  simp only [State.permPhase1_chunkWord, State.permPhase1_slots, permPhase1_totalSum,
    slotUpdate_congr s.permPhase1_chunkWord, hperm, ← hvisits] at hslots hindices
  refine ⟨slots, indices, total, ?_, hslots, hindices⟩
  simp only [exec, execPerm, if_pos hj, hperm]

/-! ### The position after a chunk -/

/-- The position is all that `permNext` changes. -/
theorem State.permNext_eq (s : State) :
    s.permNext = { s with stage := s.permNext.stage, i := s.permNext.i, j := s.permNext.j } := by
  simp only [State.permNext]
  split
  · rfl
  split <;> rfl

theorem State.permNext_slots (s : State) : s.permNext.slots = s.slots := by rw [State.permNext_eq]

theorem State.permNext_indices (s : State) : s.permNext.indices = s.indices := by rw [State.permNext_eq]

theorem State.permNext_totalSum (s : State) : s.permNext.totalSum = s.totalSum := by rw [State.permNext_eq]

/-- After an inner chunk the next one. -/
theorem State.permNext_inner {s : State} (h : s.jNat < 255) :
    s.permNext.stage = .v1Perm ∧ s.permNext.i = s.i ∧ s.permNext.jNat = s.jNat + 1 := by
  rw [State.permNext, if_pos h]
  exact ⟨rfl, rfl, State.toNat_succ (n := 255) h (by decide)⟩

/-- After the last chunk `SLOTWB`, as `PERM` runs over the scratchpad once. -/
theorem State.permNext_last {s : State} (hj : s.jNat = 255) (hi : s.i = 0) :
    s.permNext.stage = .v1Slotwb ∧ s.permNext.i = 0 ∧ s.permNext.j = 0 := by
  rw [State.permNext, if_neg (by omega), if_neg (by rw [State.iNat, hi]; decide)]
  exact ⟨rfl, rfl, rfl⟩

/-! ### The two statements on `PERM` -/

/-- Settles O28: the order is a permutation of all the slots, and `PERM` follows it by `exec_perm_visits`. -/
theorem permVisitsOnce : Obligations.PermVisitsOnce := by
  intro s hj visits
  have hvisits : visits = permVisits (fun k => (s.chunkWord k).toNat) 256 (List.finRange 256) := rfl
  have hperm : visits.1.Perm (List.finRange 256) := hvisits ▸ permVisits_perm_finRange _
  clear_value visits
  obtain ⟨slots, indices, total, hexec, hfold, -, hindices⟩ := exec_perm_visits hj hvisits
  refine ⟨hperm.length_eq.trans List.length_finRange, hperm.nodup_iff.2 (List.nodup_finRange 256), _, hexec, ?_,
    fun k => ?_⟩
  · rw [State.permNext_slots, State.permNext_totalSum]
    exact hfold
  · rw [State.permNext_indices, ← regGet_val]
    exact hindices k.val k.isLt

/-- Settles O27: phase 1 sets up the signed sum, and every slot update keeps it. -/
theorem permSignedSum : Obligations.PermSignedSum := by
  intro s hj
  obtain ⟨slots, indices, total, hexec, hfold, -⟩ := exec_perm_visits hj rfl
  have htotal : total = signedSum s s.jNat slots := signedSum_of_foldl_slotUpdate hfold rfl
  refine ⟨_, hexec, ?_, fun h => State.permNext_inner h, fun h hi => State.permNext_last h hi, ?_⟩
  · rw [State.permNext_slots, State.permNext_totalSum]
    exact htotal
  · rw [State.permNext_eq]

end Sys2Proof.Machine

/-! The statements on the v1 mix (43_v1_mix.md): the values of the branch table, the priming of the circular buffers, and
the two ends of an iteration. -/

namespace Sys2Proof.Machine

/-! ### The values of the branch table, on numbers -/

/-- A difference on numbers (40_arith.md R116): the borrow out of the top bit is lost. -/
theorem toNat_sub_word (x y : Word) : (x - y).toNat = (x.toNat + 2 ^ 64 - y.toNat) % 2 ^ 64 := by
  rw [BitVec.toNat_sub', ← Nat.add_sub_assoc y.isLt.le]

theorem toNat_v1b0 (o : V1Operands) : (v1b0 o).toNat = natRotl o.result.toNat o.j ^^^ o.b.toNat := by
  rw [v1b0, BitVec.toNat_xor, toNat_rotl]

theorem toNat_v1b1 (o : V1Operands) : (v1b1 o).toNat = 2 ^ 64 - 1 - (natRotl o.result.toNat o.j ^^^ o.a.toNat) := by
  rw [v1b1, BitVec.toNat_not, BitVec.toNat_xor, toNat_rotl]

theorem toNat_v1b2 (o : V1Operands) : (v1b2 o).toNat = 2 ^ 64 - 1 - (o.result.toNat ^^^ o.a.toNat) := by
  rw [v1b2, BitVec.toNat_not, BitVec.toNat_xor]

theorem toNat_v1b3 (o : V1Operands) : (v1b3 o).toNat = o.result.toNat ^^^ o.b.toNat := by
  rw [v1b3, BitVec.toNat_xor]

theorem toNat_v1b4 (o : V1Operands) : (v1b4 o).toNat = o.result.toNat ^^^ (o.a.toNat + o.b.toNat) % 2 ^ 64 := by
  rw [v1b4, BitVec.toNat_xor, BitVec.toNat_add]

theorem toNat_v1b5 (o : V1Operands) : (v1b5 o).toNat = o.result.toNat ^^^ (o.a.toNat + 2 ^ 64 - o.b.toNat) % 2 ^ 64 := by
  rw [v1b5, BitVec.toNat_xor, toNat_sub_word]

theorem toNat_v1b6 (o : V1Operands) : (v1b6 o).toNat = o.result.toNat ^^^ (o.b.toNat + 2 ^ 64 - o.a.toNat) % 2 ^ 64 := by
  rw [v1b6, BitVec.toNat_xor, toNat_sub_word]

theorem toNat_v1b7 (o : V1Operands) : (v1b7 o).toNat = o.result.toNat ^^^ (o.a.toNat * o.b.toNat) % 2 ^ 64 := by
  rw [v1b7, BitVec.toNat_xor, BitVec.toNat_mul]

theorem toNat_v1b8 (o : V1Operands) : (v1b8 o).toNat = o.result.toNat ^^^ (o.a.toNat &&& o.b.toNat) := by
  rw [v1b8, BitVec.toNat_xor, BitVec.toNat_and]

theorem toNat_v1b9 (o : V1Operands) : (v1b9 o).toNat = o.result.toNat ^^^ (o.a.toNat ||| o.b.toNat) := by
  rw [v1b9, BitVec.toNat_xor, BitVec.toNat_or]

theorem toNat_v1b10 (o : V1Operands) : (v1b10 o).toNat = o.result.toNat ^^^ (o.a.toNat ^^^ o.b.toNat) := by
  rw [v1b10, BitVec.toNat_xor, BitVec.toNat_xor]

theorem toNat_v1b11 (o : V1Operands) :
    (v1b11 o).toNat = o.result.toNat ^^^ (o.a.toNat + 2 ^ 64 - o.result.toNat) % 2 ^ 64 := by
  rw [v1b11, BitVec.toNat_xor, toNat_sub_word]

theorem toNat_v1b12 (o : V1Operands) :
    (v1b12 o).toNat = o.result.toNat ^^^ (o.b.toNat + 2 ^ 64 - o.result.toNat) % 2 ^ 64 := by
  rw [v1b12, BitVec.toNat_xor, toNat_sub_word]

theorem toNat_v1b13 (o : V1Operands) : (v1b13 o).toNat = o.result.toNat ^^^ (o.a.toNat + o.result.toNat) % 2 ^ 64 := by
  rw [v1b13, BitVec.toNat_xor, BitVec.toNat_add]

theorem toNat_v1b14 (o : V1Operands) :
    (v1b14 o).toNat = o.result.toNat ^^^ (o.result.toNat + 2 ^ 64 - o.a.toNat) % 2 ^ 64 := by
  rw [v1b14, BitVec.toNat_xor, toNat_sub_word]

theorem toNat_v1b15 (o : V1Operands) :
    (v1b15 o).toNat = o.result.toNat ^^^ (o.result.toNat + 2 ^ 64 - o.b.toNat) % 2 ^ 64 := by
  rw [v1b15, BitVec.toNat_xor, toNat_sub_word]

/-- An operation that is the step of `BR1` with an entry has the effect of the entry's value (43_v1_mix.md R172; log 9). -/
theorem v1Effect_of_entry {s : State} (hj : s.jNat ≤ 31) {c : Instr} {entry : V1Operands → Word}
    (hexec : exec c s = v1Step entry s) {v : Nat} (hvalue : (entry s.v1Operands).toNat = v) :
    ∃ t, exec c s = .next t ∧ V1Effect v s t := by
  rw [hexec, ← hvalue]
  exact v1Step_spec entry s hj

/-- Settles O33: each operation is the step with its entry, whose value on numbers is its own `toNat_` lemma. -/
theorem v1TableLow : Obligations.V1TableLow := by
  intro s hj
  rw [regGet_mod s.bufA, regGet_mod s.bufB]
  exact ⟨v1Effect_of_entry hj rfl (toNat_v1b0 _), v1Effect_of_entry hj rfl (toNat_v1b1 _),
    v1Effect_of_entry hj rfl (toNat_v1b2 _), v1Effect_of_entry hj rfl (toNat_v1b3 _),
    v1Effect_of_entry hj rfl (toNat_v1b4 _), v1Effect_of_entry hj rfl (toNat_v1b5 _),
    v1Effect_of_entry hj rfl (toNat_v1b6 _), v1Effect_of_entry hj rfl (toNat_v1b7 _)⟩

/-- Settles O34: as `v1TableLow`, for the upper half of the table. -/
theorem v1TableHigh : Obligations.V1TableHigh := by
  intro s hj
  rw [regGet_mod s.bufA, regGet_mod s.bufB]
  exact ⟨v1Effect_of_entry hj rfl (toNat_v1b8 _), v1Effect_of_entry hj rfl (toNat_v1b9 _),
    v1Effect_of_entry hj rfl (toNat_v1b10 _), v1Effect_of_entry hj rfl (toNat_v1b11 _),
    v1Effect_of_entry hj rfl (toNat_v1b12 _), v1Effect_of_entry hj rfl (toNat_v1b13 _),
    v1Effect_of_entry hj rfl (toNat_v1b14 _), v1Effect_of_entry hj rfl (toNat_v1b15 _)⟩

/-! ### The scratchpad addresses -/

/-- A 15-bit slice on numbers (20_memory.md R70): the mask `0x7FFF` is a remainder modulo `2 ^ 15`. -/
theorem toNat_slice15 (x : Word) (n : Nat) : (slice15 x n).toNat = x.toNat / 2 ^ n % 2 ^ 15 := by
  have hmask : (0x7FFF : Word).toNat = 2 ^ 15 - 1 := rfl
  rw [slice15, BitVec.toNat_and, hmask, Nat.and_two_pow_sub_one_eq_mod, BitVec.toNat_ushiftRight,
    Nat.shiftRight_eq_div_pow]

/-- The slice at the bottom of the word. -/
theorem toNat_slice15_zero (x : Word) : (slice15 x 0).toNat = x.toNat % 2 ^ 15 := by
  rw [toNat_slice15, Nat.pow_zero, Nat.div_one]

/-- Settles O30: the two addresses are slices of the last word; an element of a buffer is the word that `PRIME` records
for it. -/
theorem prime : Obligations.Prime := by
  intro s
  refine ⟨_, rfl, toNat_slice15 _ 15, toNat_slice15_zero _, fun k => ?_, fun k => ?_, rfl⟩
  · rw [State.goto_bufA, Vector.get_ofFn]; rfl
  · rw [State.goto_bufB, Vector.get_ofFn]; rfl

/-! ### The head of an iteration -/

/-- The shim of v1 with its zero key (41_aes_shim.md R146, 00_scope.md R6). -/
theorem shim_one (a b : Word) :
    shim 1 a b = ~~~ (BitVec.ofNat 64 (leValue ((aesRound (le64 b ++ le64 a) (List.replicate 16 0)).take 8))
      ^^^ (a ^^^ b)) := by
  rw [shim, if_neg (by decide)]
  rfl

/-- Settles O31: the step's `RESULT` is the shim of the two elements, which `shim_one` writes out. -/
theorem head1 : Obligations.Head1 := by
  intro s
  rw [regGet_mod s.bufA, regGet_mod s.bufB]
  refine ⟨_, rfl, ?_⟩
  rw [shim_one]
  rfl

/-! ### The end of an iteration -/

/-- A byte of a word in big-endian order (00_scope.md R13). -/
theorem getD_be64 (x : Word) {m : Nat} (hm : m < 8) : (be64 x).getD m 0 = x.extractLsb' (8 * (7 - m)) 8 := by
  have hlen : m < (le64 x).length := by rwa [length_le64]
  rw [← getD_le64 x (by omega), be64, List.getD_eq_getElem?_getD, List.getElem?_reverse hlen, length_le64,
    ← List.getD_eq_getElem?_getD]

/-- What `TAIL1` leaves before it moves on (43_v1_mix.md R189): the refill reads the scratchpad of `s`, before the write. -/
def State.tailWritten (s : State) : State :=
  State.setPad64
    { s with
      addrB := slice15 s.result 0
      addrA := slice15 s.result 15
      bufA := regSet s.bufA s.iNat s.result
      bufB := regSet s.bufB s.iNat (s.pad64 (slice15 s.result 0).toNat)
      digest := s.tailDigest }
    (slice15 s.result 15).toNat s.result

/-- `TAIL1` moves on to the next iteration, and from the last one to `DONE` (43_v1_mix.md R189). -/
theorem exec_tail1_goto {s : State} (hi : s.iNat ≤ 4999) :
    ∃ st i, exec .tail1 s = .next (s.tailWritten.goto st i 0) ∧
      (s.iNat < 4999 → st = .v1Head ∧ i.toNat = s.iNat + 1) ∧ (s.iNat = 4999 → st = .done ∧ i = 0) := by
  rcases Nat.lt_or_eq_of_le hi with hlt | heq
  · refine ⟨.v1Head, s.i + 1, congrArg Host.Outcome.next (if_pos hlt), fun _ => ⟨rfl, ?_⟩, fun h => by omega⟩
    exact State.toNat_succ (n := 4999) hlt (by decide)
  · have hnot : ¬ s.iNat < 4999 := by omega
    exact ⟨.done, 0, congrArg Host.Outcome.next (if_neg hnot), fun h => absurd h hnot, fun _ => ⟨rfl, rfl⟩⟩

/-- Settles O35: the state written is `State.tailWritten` at the position of `exec_tail1_goto`; each clause is the law of the
one register or memory operation it is about. -/
theorem tail1 : Obligations.Tail1 := by
  intro s hiter low high
  have hlow : (slice15 s.result 0).toNat = low := toNat_slice15_zero _
  have hhigh : (slice15 s.result 15).toNat = high := toNat_slice15 _ 15
  obtain ⟨st, i, hexec, hnext, hlast⟩ := exec_tail1_goto hiter
  refine ⟨_, hexec, hlow, hhigh, get_regSet s.bufA s.iNat (x := s.result), fun k => ?_, ?_, ?_, fun k => ?_,
    fun h => (hnext h).imp_right fun hsucc => ⟨hsucc, rfl⟩, fun h => (hlast h).imp_right fun hzero => ⟨hzero, rfl⟩, rfl⟩
  · rw [← hlow]
    exact get_regSet s.bufB s.iNat k _
  · rw [← hhigh]
    exact (State.pad64_setPad64 _ _ _ _).trans (if_pos rfl)
  · rw [← hhigh]
    exact State.setPad64_padSameOutside _ _ _
  · rw [← getD_be64 s.result (Nat.mod_lt _ (by decide))]
    exact s.get_tailDigest hiter k

end Sys2Proof.Machine

/-! The statements on the v2 and v3 fill (44_chacha_fill.md): what `CFZERO`, `CFSEED` and `CFCHUNK` leave and which faults they
raise, and which runs the fill lets end in `S_DONE`. -/

namespace Sys2Proof.Machine

/-! ### The lengths of the primitives' byte strings -/

theorem length_halfBytes (l : List Half) : (halfBytes l).length = 4 * l.length := by
  induction l with
  | nil => rfl
  | cons x t ih =>
    have hcons : halfBytes (x :: t) = (List.range 4).map (fun m => x.extractLsb' (8 * m) 8) ++ halfBytes t := rfl
    rw [hcons, List.length_append, ih, List.length_map, List.length_range, List.length_cons]
    omega

theorem length_blakeCompress (cv : ChainValue) (m : List Half) (counter blen flags : Nat) :
    (blakeCompress cv m counter blen flags).length = 8 := by
  rw [blakeCompress, List.length_map, List.length_range]

theorem length_blakeBlocks (t : Nat) (root first : Bool) {cv : ChainValue} (hcv : cv.length = 8) (blocks : List (List Byte)) :
    (blakeBlocks t root first cv blocks).length = 8 := by
  induction blocks generalizing first cv with
  | nil => exact hcv
  | cons b rest ih => exact ih false (length_blakeCompress _ _ _ _ _)

theorem length_blakeChunk (t : Nat) (root : Bool) (chunk : List Byte) : (blakeChunk t root chunk).length = 8 :=
  length_blakeBlocks t root true rfl _

/-- The root of a subtree is a chaining value where there is a chunk (48_primitives.md R312). -/
theorem length_blakeTree (root : Bool) (fuel : Nat) {cvs : List ChainValue} (hne : cvs ≠ [])
    (hcvs : ∀ cv ∈ cvs, cv.length = 8) : (blakeTree root (fuel + 1) cvs).length = 8 := by
  match cvs with
  | [] => exact absurd rfl hne
  | [cv] => exact hcvs cv List.mem_cons_self
  | _ :: _ :: _ => exact length_blakeCompress _ _ _ _ _

theorem cutPieces_ne_nil (n fuel : Nat) (l : List Byte) : cutPieces n fuel l ≠ [] := by
  cases fuel with
  | zero => exact List.cons_ne_nil _ _
  | succ fuel =>
    rw [cutPieces]
    split <;> exact List.cons_ne_nil _ _

/-- `blake3` gives 32 bytes (48_primitives.md R307). -/
theorem length_blake3 (msg : List Byte) : (blake3 msg).length = 32 := by
  have hne := cutPieces_ne_nil 1024 msg.length msg
  rw [blake3]
  generalize cutPieces 1024 msg.length msg = chunks at hne
  match chunks with
  | [] => exact absurd rfl hne
  | [c] => exact (length_halfBytes _).trans (congrArg (4 * ·) (length_blakeChunk 0 true c))
  | c :: d :: rest =>
    refine (length_halfBytes _).trans (congrArg (4 * ·) (length_blakeTree true _ (by simp) fun cv hcv => ?_))
    obtain ⟨t, ht, rfl⟩ := List.mem_mapIdx.1 hcv
    exact length_blakeChunk _ _ _

theorem length_chachaBlock (key nonce : List Byte) (n : Nat) : (chachaBlock key nonce n).length = 64 := by
  rw [chachaBlock, length_halfBytes, List.length_map, List.length_range]

/-- The keystream has the length asked for (48_primitives.md R306). -/
theorem length_chacha8Keystream (key nonce : List Byte) (n : Nat) : (chacha8Keystream key nonce n).length = n := by
  have hblocks : ((List.range ((n + 63) / 64)).flatMap (chachaBlock key nonce)).length = 64 * ((n + 63) / 64) := by
    simp only [List.length_flatMap, length_chachaBlock, List.map_const', List.length_range, List.sum_replicate, smul_eq_mul]
    exact Nat.mul_comm _ _
  rw [chacha8Keystream, List.length_take, hblocks]
  omega

/-! ### Byte strings in registers -/

theorem get_bytesToVector {n : Nat} (l : List Byte) (k : Fin n) : (bytesToVector n l).get k = l.getD k.val 0 := by
  rw [bytesToVector, Vector.get_ofFn]

theorem toList_bytesToVector {n : Nat} {l : List Byte} (h : l.length = n) : (bytesToVector n l).toList = l := by
  subst h
  refine List.ext_getElem (by simp) fun k _ _ => ?_
  simp [bytesToVector, List.getD_eq_getElem?_getD]

/-! ### CFZERO and CFSEED -/

theorem exec_cfzero_next {s : State} (hver : s.ver = 2 ∨ s.ver = 3) :
    exec .cfzero s = .next ((s.zeroPad (memBytes s.ver)).goto .cfSeed 0 0) :=
  if_pos (mixVer_of_or hver)

/-- Settles O36: `State.read_zeroPad` for the bytes below and above the end of the scratchpad. -/
theorem cfzero : Obligations.Cfzero := by
  intro s hver
  exact ⟨_, exec_cfzero_next hver, fun a ha => (s.read_zeroPad _ a).trans (if_pos ha),
    fun a ha => (s.read_zeroPad _ a).trans (if_neg (Nat.not_lt.2 ha)), rfl⟩

/-- The count of chunks fits its register (44_chacha_fill.md R201). -/
theorem toNat_chunkCount (len : Half) : (chunkCount len).toNat = (len.toNat + 31) / 32 := by
  have hlen := len.isLt
  rw [chunkCount, BitVec.toNat_ofNat]
  omega

/-- `CFSEED`'s registers before it moves on (44_chacha_fill.md R201). -/
def State.seeded (s : State) : State :=
  { s with
    h := bytesToVector 32 (blake3 (s.inBytes 0 s.len.toNat))
    nonce := bytesToVector 12 (blake3 (s.inBytes 0 s.len.toNat))
    outOff := 0
    numChunks := chunkCount s.len }

/-- `CFSEED` moves on to the first chunk, and past the fill where there is none (44_chacha_fill.md R201). -/
theorem exec_cfseed_goto (s : State) :
    exec .cfseed s = .next (s.seeded.goto (if (s.len.toNat + 31) / 32 = 0 then .mxSetup else .cfChunk) 0 0) := by
  have hzero : chunkCount s.len = 0 ↔ (s.len.toNat + 31) / 32 = 0 := by
    rw [← toNat_chunkCount]
    exact ⟨fun h => congrArg BitVec.toNat h, fun h => BitVec.eq_of_toNat_eq h⟩
  refine congrArg Host.Outcome.next ?_
  by_cases h : (s.len.toNat + 31) / 32 = 0
  · rw [if_pos h]
    exact if_pos (hzero.2 h)
  · rw [if_neg h]
    exact if_neg (mt hzero.1 h)

theorem State.inBytes_zero (s : State) (n : Nat) : s.inBytes 0 n = (List.range n).map fun k => s.input.read k := by
  simp only [State.inBytes, Memory.readBytes, Nat.zero_add]

/-- Settles O37: the registers are those of `State.seeded`, whose hash is that of the input's bytes. -/
theorem cfseed : Obligations.Cfseed := by
  intro s hash
  have hhash : blake3 (s.inBytes 0 s.len.toNat) = hash := congrArg blake3 (s.inBytes_zero _)
  rw [exec_cfseed_goto, State.seeded, hhash]
  clear_value hash
  exact ⟨_, rfl, get_bytesToVector hash, get_bytesToVector hash, rfl, toNat_chunkCount s.len, rfl, rfl, rfl, rfl⟩

/-! ### CFCHUNK -/

/-- `CFCHUNK`'s first effect, which its faults keep (44_chacha_fill.md R202, R204, R205): `H` is the hash of the message. -/
def State.chunkHashed (s : State) : State := { s with h := bytesToVector 32 (blake3 s.chunkMessage) }

/-- The first byte of `CFCHUNK`'s range (44_chacha_fill.md R202). -/
def State.chunkOffset (s : State) : Nat := s.iNat * s.chunkCur.toNat

/-- `CFCHUNK` where the position is that of a chunk: the two faults in their order, then the fill (44_chacha_fill.md R202). -/
theorem exec_cfchunk_cases {s : State} (hver : s.ver = 2 ∨ s.ver = 3) (hk : s.iNat < s.numChunks.toNat) :
    exec .cfchunk s = .next (
      if memBytes s.ver < s.chunkOffset + s.chunkCur.toNat then s.chunkHashed.raise .fillRange
      else if s.chunkCur.toNat < 12 then s.chunkHashed.raise .fillNonceShort
      else (s.chunkHashed.chunkFill s.chunkOffset s.chunkCur.toNat).chunkNext) :=
  (if_pos (mixVer_of_or hver)).trans (if_pos hk)

theorem exec_cfchunk_range {s : State} (hver : s.ver = 2 ∨ s.ver = 3) (hk : s.iNat < s.numChunks.toNat)
    (hrange : memBytes s.ver < s.chunkOffset + s.chunkCur.toNat) :
    exec .cfchunk s = .next (s.chunkHashed.raise .fillRange) := by
  rw [exec_cfchunk_cases hver hk, if_pos hrange]

theorem exec_cfchunk_short {s : State} (hver : s.ver = 2 ∨ s.ver = 3) (hk : s.iNat < s.numChunks.toNat)
    (hfit : s.chunkOffset + s.chunkCur.toNat ≤ memBytes s.ver) (hshort : s.chunkCur.toNat < 12) :
    exec .cfchunk s = .next (s.chunkHashed.raise .fillNonceShort) := by
  rw [exec_cfchunk_cases hver hk, if_neg (Nat.not_lt.2 hfit), if_pos hshort]

theorem exec_cfchunk_fill {s : State} (hver : s.ver = 2 ∨ s.ver = 3) (hk : s.iNat < s.numChunks.toNat)
    (hfit : s.chunkOffset + s.chunkCur.toNat ≤ memBytes s.ver) (hlong : 12 ≤ s.chunkCur.toNat) :
    exec .cfchunk s = .next (s.chunkHashed.chunkFill s.chunkOffset s.chunkCur.toNat).chunkNext := by
  rw [exec_cfchunk_cases hver hk, if_neg (Nat.not_lt.2 hfit), if_neg (Nat.not_lt.2 hlong)]

/-- Settles O39: the two fault cases of `CFCHUNK`, with `cur` as the number that `State.toNat_chunkCur` gives. -/
theorem cfchunkFaults : Obligations.CfchunkFaults := by
  intro s hver hk hoff cur chunk hash
  have hcur : s.chunkCur.toNat = cur := State.toNat_chunkCur hk hoff
  have hoffset : s.chunkOffset = s.iNat * cur := congrArg (s.iNat * ·) hcur
  have hhash : s.chunkHashed = { s with h := bytesToVector 32 hash } := rfl
  clear_value hash
  refine ⟨fun hrange => ?_, fun hfit hshort => ?_⟩
  · rw [exec_cfchunk_range hver hk (by rwa [hoffset, hcur]), hhash]
    exact ⟨_, rfl, get_bytesToVector hash, rfl⟩
  · rw [exec_cfchunk_short hver hk (by rwa [hoffset, hcur]) (by rwa [hcur]), hhash]
    exact ⟨_, rfl, get_bytesToVector hash, rfl⟩

/-- A byte of the scratchpad after the keystream is applied (44_chacha_fill.md R202). -/
theorem State.read_chunkFill (s : State) (offset cur a : Nat) :
    (s.chunkFill offset cur).pad.read a =
      if offset ≤ a ∧ a < offset + cur then
        s.pad.read a ^^^ (chacha8Keystream s.h.toList s.nonce.toList cur).getD (a - offset) 0
      else s.pad.read a := by
  have hlen : ((s.padBytes offset cur).zipWith (· ^^^ ·) (chacha8Keystream s.h.toList s.nonce.toList cur)).length = cur := by
    rw [List.length_zipWith, State.padBytes, Memory.length_readBytes, length_chacha8Keystream, Nat.min_self]
  refine (s.read_setPadBytes offset _ a).trans ?_
  rw [hlen]
  by_cases ha : offset ≤ a ∧ a < offset + cur
  · have hk : a - offset < (chacha8Keystream s.h.toList s.nonce.toList cur).length := by
      rw [length_chacha8Keystream]
      omega
    have hm : a - offset < cur := by omega
    rw [if_pos ha, if_pos ha]
    simp [List.getD_eq_getElem?_getD, State.padBytes, Memory.readBytes, hk, hm,
      show offset + (a - offset) = a by omega]
  · rw [if_neg ha, if_neg ha]

/-- `CFCHUNK` moves on to the next chunk, and past the fill from the last one (44_chacha_fill.md R202). -/
theorem State.chunkNext_goto {s : State} (hk : s.iNat < s.numChunks.toNat) :
    ∃ st i, s.chunkNext = s.goto st i 0 ∧
      (s.iNat + 1 < s.numChunks.toNat → st = .cfChunk ∧ i.toNat = s.iNat + 1) ∧
      (s.iNat + 1 = s.numChunks.toNat → st = .mxSetup ∧ i = 0) := by
  by_cases hlt : s.iNat + 1 < s.numChunks.toNat
  · exact ⟨.cfChunk, s.i + 1, if_pos hlt, fun _ => ⟨rfl, State.toNat_succ hk s.numChunks.isLt⟩,
      fun h => absurd hlt (Nat.not_lt.2 h.ge)⟩
  · exact ⟨.mxSetup, 0, if_neg hlt, fun h => absurd h hlt, fun _ => ⟨rfl, rfl⟩⟩

theorem State.chunkFill_iNat (s : State) (offset cur : Nat) : (s.chunkFill offset cur).iNat = s.iNat := rfl

theorem State.chunkFill_numChunks (s : State) (offset cur : Nat) : (s.chunkFill offset cur).numChunks = s.numChunks := rfl

/-- `State.chunkNext_goto` with the position and the count of the chunk that was filled. -/
theorem State.chunkFill_chunkNext {s : State} (hk : s.iNat < s.numChunks.toNat) (offset cur : Nat) :
    ∃ st i, (s.chunkFill offset cur).chunkNext = (s.chunkFill offset cur).goto st i 0 ∧
      (s.iNat + 1 < s.numChunks.toNat → st = .cfChunk ∧ i.toNat = s.iNat + 1) ∧
      (s.iNat + 1 = s.numChunks.toNat → st = .mxSetup ∧ i = 0) := by
  have hnext := State.chunkNext_goto (s := s.chunkFill offset cur)
  rw [State.chunkFill_iNat, State.chunkFill_numChunks] at hnext
  exact hnext hk

/-- `OUTOFF` after a chunk does not wrap. -/
theorem State.toNat_chunkFill_outOff {s : State} (offset : Nat) {cur : Nat} (h : s.outOff.toNat + cur < 2 ^ 64) :
    (s.chunkFill offset cur).outOff.toNat = s.outOff.toNat + cur := by
  show (s.outOff + BitVec.ofNat 64 cur).toNat = _
  rw [BitVec.toNat_add, BitVec.toNat_ofNat]
  omega

/-- `NONCE` after a chunk of at least 12 bytes: the last 12 bytes of it (44_chacha_fill.md R202). -/
theorem State.get_chunkFill_nonce (s : State) (offset cur : Nat) (k : Fin 12) :
    (s.chunkFill offset cur).nonce.get k = (s.chunkFill offset cur).pad.read (offset + cur - 12 + k.val) :=
  (get_bytesToVector _ k).trans ((Memory.getD_readBytes _ _ 12 _).trans (if_pos k.isLt))

/-- Settles O38: the state written is `State.chunkFill` of the hashed one at the position of `State.chunkNext_goto`; the hash is
32 bytes long, so that `H` is the whole of it. -/
theorem cfchunkCompletes : Obligations.CfchunkCompletes := by
  intro s hver hk hoff cur offset chunk hash ks hfit hlong
  have hcur : s.chunkCur.toNat = cur := State.toNat_chunkCur hk hoff
  have hoffset : s.chunkOffset = offset := congrArg (s.iNat * ·) hcur
  have hend : s.outOff.toNat + cur < 2 ^ 64 :=
    calc s.outOff.toNat + cur ≤ memBytes s.ver := Nat.add_le_of_le_sub' hoff (Nat.div_le_self _ _)
      _ ≤ 8 * 67968 := memBytes_le s.ver
      _ < 2 ^ 64 := by decide
  have hhash : s.chunkHashed = { s with h := bytesToVector 32 hash } := rfl
  have hget : ∀ k : Fin 32, (bytesToVector 32 hash).get k = hash.getD k.val 0 := get_bytesToVector hash
  have hlist : (bytesToVector 32 hash).toList = hash := toList_bytesToVector (length_blake3 _)
  generalize bytesToVector 32 hash = x at hhash hget hlist
  have hexec := exec_cfchunk_fill hver hk (by rwa [hoffset, hcur]) (by rwa [hcur])
  obtain ⟨st, i, hnext, hmore, hlast⟩ := State.chunkFill_chunkNext (s := { s with h := x }) hk offset cur
  rw [hoffset, hcur, hhash, hnext] at hexec
  have hread := ({ s with h := x } : State).read_chunkFill offset cur
  rw [hlist] at hread
  refine ⟨_, hexec, hget, fun m hm => ?_, fun a ha => ?_, State.toNat_chunkFill_outOff offset hend,
    State.get_chunkFill_nonce _ offset cur, fun h => (hmore h).imp_right fun hi => ⟨hi, rfl⟩,
    fun h => (hlast h).imp_right fun hi => ⟨hi, rfl⟩, rfl⟩
  · refine (hread (offset + m)).trans ((if_pos (by omega)).trans ?_)
    rw [Nat.add_sub_cancel_left]
  · exact (hread a).trans (if_neg (by omega))

/-! ### Runs to an end -/

/-- `n` steps lead from `s` to a state with `P`. -/
def RunsTo (n : Nat) (P : State → Prop) (s : State) : Prop := ∃ u, Host.Core.run Sys2Proof.core n s = .next u ∧ P u

theorem RunsTo.of_step {n : Nat} {P : State → Prop} {s t : State} (hstep : step s = .next t) (h : RunsTo n P t) :
    RunsTo (n + 1) P s := by
  obtain ⟨u, hrun, hu⟩ := h
  exact ⟨u, (run_succ_of_next hstep).trans hrun, hu⟩

/-- A sequencer at rest stays where it is (10_state.md R25). -/
theorem runsTo_of_rest (n : Nat) {P : State → Prop} {s : State} (hrest : s.busy = false) (hin : s.inputs = []) (hs : P s) :
    RunsTo n P s := by
  induction n with
  | zero => exact ⟨s, rfl, hs⟩
  | succ n ih => exact .of_step (step_of_rest_nil hrest hin) ih

/-- The step of an engine in a run that the host leaves alone, from what its operation answers. -/
theorem RunInv.step_of_exec {s t : State} {c : Instr} (h : RunInv s) (hin : s.inputs = [])
    (hc : decodeSeq (stageCode s.stage) = .ok c) (he : exec c s = .next t) :
    step s = .next t ∧ SeqFrame s t ∧ RunInv t := by
  have hstep := h.step_of_sequencer (State.busy_of_decodeSeq hc) (nextSelector_of_nil hin) hc
  rw [takeInput_of_nil hin, he] at hstep
  obtain ⟨t', ht', hframe, hinv⟩ := h.step_alone hin
  cases hstep.symm.trans ht'
  exact ⟨hstep, hframe, hinv⟩

/-- The steps left, read at a known stage (70_reset_and_hazards.md R361). -/
theorem State.stepsLeft_at {s : State} {st : Stage} (hst : s.stage = st) :
    s.stepsLeft = ({ s with stage := st } : State).stepsLeft := by
  rw [← hst]

/-! ### The steps from `MXSETUP` to `S_DONE` -/

/-- The stages after the fill (10_state.md R25). -/
def Stage.mixes : Stage → Bool
  | .mxSetup | .v2Head | .v2Step | .v2Tail | .v3Head | .v3Step | .v3Tail | .fin | .done => true
  | _ => false

/-- A step after the fill: it raises no fault and takes one off the count. -/
structure MixAdvances (s t : State) : Prop where
  mixes : t.stage.mixes = true
  counts : s.stepsLeft = t.stepsLeft + 1

theorem exec_mxsetup_advances {s : State} (h : RunInv s) (hst : s.stage = .mxSetup) :
    ∃ t, exec .mxsetup s = .next t ∧ MixAdvances s t := by
  obtain ⟨hver, -, -⟩ : (s.ver = 2 ∨ s.ver = 3) ∧ s.i = 0 ∧ s.j = 0 := h.seq_at hst
  have hs : s.stepsLeft = if s.ver = 2 then mixSteps2 else mixSteps3 := State.stepsLeft_at hst
  simp only [exec, execMxsetup, if_pos (mixVer_of_or hver)]
  refine ⟨_, rfl, ?_⟩
  rcases hver with hver | hver
  · rw [if_pos hver] at hs ⊢
    exact ⟨rfl, hs⟩
  · have hne : ¬ s.ver = 2 := by rw [hver]; decide
    rw [if_neg hne] at hs ⊢
    exact ⟨rfl, hs⟩

theorem exec_head2_advances {s : State} (h : RunInv s) (hst : s.stage = .v2Head) :
    ∃ t, exec .head2 s = .next t ∧ MixAdvances s t := by
  obtain ⟨-, hi, -⟩ : s.ver = 2 ∧ s.iNat ≤ 2 ∧ s.j = 0 := h.seq_at hst
  have hs : s.stepsLeft = 27458 * (3 - s.iNat) + 1 := State.stepsLeft_at hst
  refine ⟨_, rfl, rfl, hs.trans ?_⟩
  show _ = 27458 * (2 - s.iNat) + (27456 - 0) + 2 + 1
  omega

theorem exec_step2_advances {s : State} (h : RunInv s) (hst : s.stage = .v2Step) :
    ∃ t, exec .step2 s = .next t ∧ MixAdvances s t := by
  obtain ⟨-, hi, hj⟩ : s.ver = 2 ∧ s.iNat ≤ 2 ∧ s.jNat ≤ 27455 := h.seq_at hst
  have hs : s.stepsLeft = 27458 * (2 - s.iNat) + (27456 - s.jNat) + 2 := State.stepsLeft_at hst
  obtain ⟨t, ht, -, -, -, -, -, -, hti, hnext, hlast⟩ := v2Step_spec _ s (Nat.lt_succ_of_le hj) (h.r_lt_of_v2Step hst)
  have hti' : t.iNat = s.iNat := congrArg BitVec.toNat hti
  refine ⟨t, ht, ?_⟩
  rcases Nat.lt_or_eq_of_le hj with hlt | heq
  · obtain ⟨hstage, htj⟩ := hnext hlt
    have htl : t.stepsLeft = 27458 * (2 - t.iNat) + (27456 - t.jNat) + 2 := State.stepsLeft_at hstage
    exact ⟨by rw [hstage]; rfl, by omega⟩
  · obtain ⟨hstage, -⟩ := hlast heq
    have htl : t.stepsLeft = 27458 * (2 - t.iNat) + 2 := State.stepsLeft_at hstage
    exact ⟨by rw [hstage]; rfl, by omega⟩

theorem exec_tail2_advances {s : State} (h : RunInv s) (hst : s.stage = .v2Tail) :
    ∃ t, exec .tail2 s = .next t ∧ MixAdvances s t := by
  obtain ⟨-, hi, -⟩ : s.ver = 2 ∧ s.iNat ≤ 2 ∧ s.j = 0 := h.seq_at hst
  have hs : s.stepsLeft = 27458 * (2 - s.iNat) + 2 := State.stepsLeft_at hst
  refine ⟨_, rfl, ?_⟩
  rcases Nat.lt_or_eq_of_le hi with hlt | heq
  · have hsucc : (s.i + 1).toNat = s.iNat + 1 := State.toNat_succ hlt (by decide)
    rw [if_pos (show s.iNat < mixIters2 - 1 from hlt)]
    refine ⟨rfl, hs.trans ?_⟩
    show _ = 27458 * (3 - (s.i + 1).toNat) + 1 + 1
    omega
  · rw [if_neg (show ¬ s.iNat < mixIters2 - 1 from Nat.not_lt.2 heq.ge)]
    refine ⟨rfl, hs.trans ?_⟩
    rw [heq]
    rfl

theorem exec_head3_advances {s : State} (h : RunInv s) (hst : s.stage = .v3Head) :
    ∃ t, exec .head3 s = .next t ∧ MixAdvances s t := by
  obtain ⟨-, hi, -⟩ : s.ver = 3 ∧ s.iNat ≤ 1 ∧ s.j = 0 := h.seq_at hst
  have hs : s.stepsLeft = 33986 * (2 - s.iNat) + 1 := State.stepsLeft_at hst
  refine ⟨_, rfl, rfl, hs.trans ?_⟩
  show _ = 33986 * (1 - s.iNat) + (33984 - 0) + 2 + 1
  omega

theorem exec_step3_advances {s : State} (h : RunInv s) (hst : s.stage = .v3Step) :
    ∃ t, exec .step3 s = .next t ∧ MixAdvances s t := by
  obtain ⟨-, hi, hj⟩ : s.ver = 3 ∧ s.iNat ≤ 1 ∧ s.jNat ≤ 33983 := h.seq_at hst
  have hs : s.stepsLeft = 33986 * (1 - s.iNat) + (33984 - s.jNat) + 2 := State.stepsLeft_at hst
  obtain ⟨t, ht, -, -, -, -, -, -, -, -, hti, hnext, hlast⟩ :=
    v3Step_spec _ s (Nat.lt_succ_of_le hj) (h.r_lt_of_v3Step hst)
  have hti' : t.iNat = s.iNat := congrArg BitVec.toNat hti
  refine ⟨t, ht, ?_⟩
  rcases Nat.lt_or_eq_of_le hj with hlt | heq
  · obtain ⟨hstage, htj⟩ := hnext hlt
    have htl : t.stepsLeft = 33986 * (1 - t.iNat) + (33984 - t.jNat) + 2 := State.stepsLeft_at hstage
    exact ⟨by rw [hstage]; rfl, by omega⟩
  · obtain ⟨hstage, -⟩ := hlast heq
    have htl : t.stepsLeft = 33986 * (1 - t.iNat) + 2 := State.stepsLeft_at hstage
    exact ⟨by rw [hstage]; rfl, by omega⟩

theorem exec_tail3_advances {s : State} (h : RunInv s) (hst : s.stage = .v3Tail) :
    ∃ t, exec .tail3 s = .next t ∧ MixAdvances s t := by
  obtain ⟨-, hi, -⟩ : s.ver = 3 ∧ s.iNat ≤ 1 ∧ s.j = 0 := h.seq_at hst
  have hs : s.stepsLeft = 33986 * (1 - s.iNat) + 2 := State.stepsLeft_at hst
  refine ⟨_, rfl, ?_⟩
  rcases Nat.lt_or_eq_of_le hi with hlt | heq
  · have hsucc : (s.i + 1).toNat = s.iNat + 1 := State.toNat_succ hlt (by decide)
    rw [if_pos (show s.iNat < mixIters3 - 1 from hlt)]
    refine ⟨rfl, hs.trans ?_⟩
    show _ = 33986 * (2 - (s.i + 1).toNat) + 1 + 1
    omega
  · rw [if_neg (show ¬ s.iNat < mixIters3 - 1 from Nat.not_lt.2 heq.ge)]
    refine ⟨rfl, hs.trans ?_⟩
    rw [heq]
    rfl

theorem exec_fin_advances {s : State} (h : RunInv s) (hst : s.stage = .fin) :
    ∃ t, exec .fin s = .next t ∧ MixAdvances s t := by
  obtain ⟨hver, -, -⟩ : (s.ver = 2 ∨ s.ver = 3) ∧ s.i = 0 ∧ s.j = 0 := h.seq_at hst
  exact ⟨_, if_pos (mixVer_of_or hver), rfl, State.stepsLeft_at hst⟩

/-- The operation of every busy stage after the fill. -/
theorem RunInv.mix_advances {s : State} (h : RunInv s) (hb : s.busy = true) (hmix : s.stage.mixes = true) :
    ∃ c, decodeSeq (stageCode s.stage) = .ok c ∧ ∃ t, exec c s = .next t ∧ MixAdvances s t := by
  cases hst : s.stage with
  | mxSetup => exact ⟨.mxsetup, rfl, exec_mxsetup_advances h hst⟩
  | v2Head => exact ⟨.head2, rfl, exec_head2_advances h hst⟩
  | v2Step => exact ⟨.step2, rfl, exec_step2_advances h hst⟩
  | v2Tail => exact ⟨.tail2, rfl, exec_tail2_advances h hst⟩
  | v3Head => exact ⟨.head3, rfl, exec_head3_advances h hst⟩
  | v3Step => exact ⟨.step3, rfl, exec_step3_advances h hst⟩
  | v3Tail => exact ⟨.tail3, rfl, exec_tail3_advances h hst⟩
  | fin => exact ⟨.fin, rfl, exec_fin_advances h hst⟩
  | done => simp [State.busy, hst] at hb
  | _ => rw [hst] at hmix; cases hmix

/-- The run has ended without a fault (60_exceptions.md R329). -/
def Completed (u : State) : Prop := u.stage = .done ∧ u.err = .none

/-- The run has ended in the fault `e` (60_exceptions.md R330). -/
def Faulted (e : ErrCode) (u : State) : Prop := u.stage = .fault ∧ u.err = e

/-- After the fill only `S_DONE` is a state of rest (10_state.md R26). -/
theorem State.stage_done_of_mixes {s : State} (hrest : s.busy = false) (hmix : s.stage.mixes = true) : s.stage = .done := by
  cases hst : s.stage with
  | done => rfl
  | idle | fault => rw [hst] at hmix; cases hmix
  | _ => simp [State.busy, hst] at hrest

/-- Past the fill, a run completes in the steps left. -/
theorem RunInv.mix_completes {s : State} (h : RunInv s) (hin : s.inputs = []) (hmix : s.stage.mixes = true) :
    RunsTo s.stepsLeft Completed s := by
  cases hb : s.busy with
  | false =>
    have hdone := State.stage_done_of_mixes hb hmix
    have hnone : s.err = .none := Decidable.not_not.1 fun he => by simpa [hdone] using h.errFault.1 he
    exact runsTo_of_rest _ hb hin ⟨hdone, hnone⟩
  | true =>
    obtain ⟨c, hc, t, he, hadv⟩ := h.mix_advances hb hmix
    obtain ⟨hstep, hframe, hinv⟩ := h.step_of_exec hin hc he
    rw [hadv.counts]
    exact .of_step hstep (hinv.mix_completes (hframe.inputs.trans hin) hadv.mixes)
termination_by s.stepsLeft
decreasing_by exact Nat.lt_of_lt_of_eq (Nat.lt_succ_self _) hadv.counts.symm

/-! ### The steps of the fill -/

/-- A run that raises a fault stays in it (60_exceptions.md R331). -/
theorem RunInv.faults_of_exec {s t : State} {c : Instr} {e : ErrCode} (n : Nat) (h : RunInv s) (hin : s.inputs = [])
    (hc : decodeSeq (stageCode s.stage) = .ok c) (he : exec c s = .next t) (ht : Faulted e t) :
    RunsTo (n + 1) (Faulted e) s := by
  obtain ⟨hstep, hframe, -⟩ := h.step_of_exec hin hc he
  have hrest : t.busy = false := by simp [State.busy, ht.1]
  exact .of_step hstep (runsTo_of_rest n hrest (hframe.inputs.trans hin) ht)

/-- Every share is at least the average one (44_chacha_fill.md R202), by the invariant's bound on what is left. -/
theorem average_le_share {mem n k off : Nat} (hk : k < n) (hleft : mem * (n - k) ≤ n * (mem - off)) :
    mem / n ≤ (mem - off) / (n - k) := by
  have hn : 0 < n := by omega
  rw [Nat.le_div_iff_mul_le (by omega)]
  refine Nat.le_of_mul_le_mul_left (c := n) ?_ hn
  calc n * (mem / n * (n - k)) = n * (mem / n) * (n - k) := (Nat.mul_assoc _ _ _).symm
    _ ≤ mem * (n - k) := Nat.mul_le_mul_right _ (Nat.mul_div_le _ _)
    _ ≤ n * (mem - off) := hleft

/-- Where the count of chunks divides the scratchpad, every range fits (44_chacha_fill.md R206). -/
theorem chunk_fits_of_dvd {mem n k off : Nat} (hk : k < n) (hoff : off ≤ mem) (hleft : mem * (n - k) ≤ n * (mem - off))
    (hexact : n ∣ mem → off = k * (mem / n)) (hdvd : n ∣ mem) :
    k * ((mem - off) / (n - k)) + (mem - off) / (n - k) ≤ mem := by
  obtain ⟨hend, -, hshare⟩ := chunk_share hk hoff hleft hexact
  have hcur : (mem - off) / (n - k) = mem / n := by
    have hsum := hshare hdvd
    rw [Nat.succ_mul, ← hexact hdvd] at hsum
    exact Nat.add_left_cancel hsum
  rw [hcur, ← hexact hdvd, ← hcur]
  exact hend

/-- The last range fits only where the count of chunks divides the scratchpad (44_chacha_fill.md R204): the last share is all
that is left, which is at least `mem / n`. -/
theorem dvd_of_last_fits {mem n k off : Nat} (hlast : k + 1 = n) (hleft : mem * (n - k) ≤ n * (mem - off))
    (hfit : k * ((mem - off) / (n - k)) + (mem - off) / (n - k) ≤ mem) : n ∣ mem := by
  have hone : n - k = 1 := by omega
  rw [hone, Nat.div_one, ← Nat.succ_mul, Nat.succ_eq_add_one, hlast] at hfit
  rw [hone, Nat.mul_one] at hleft
  exact ⟨mem - off, Nat.le_antisymm hleft hfit⟩

/-- How a run ends whose fill cuts `mem` bytes into `n` chunks (44_chacha_fill.md R204 to R206). -/
def FillEnd (mem n : Nat) (u : State) : Prop :=
  if n = 0 ∨ (n ∣ mem ∧ 12 ≤ mem / n) then Completed u
  else if mem / n < 12 then Faulted .fillNonceShort u
  else Faulted .fillRange u

theorem fillEnd_completed {mem n : Nat} (h : n = 0 ∨ (n ∣ mem ∧ 12 ≤ mem / n)) : FillEnd mem n = Completed := by
  funext u
  exact if_pos h

theorem fillEnd_short {mem n : Nat} (hn : n ≠ 0) (h : mem / n < 12) : FillEnd mem n = Faulted .fillNonceShort := by
  funext u
  rw [FillEnd, if_neg (by omega), if_pos h]

theorem fillEnd_range {mem n : Nat} (hn : n ≠ 0) (hlong : 12 ≤ mem / n) (hdvd : ¬ n ∣ mem) :
    FillEnd mem n = Faulted .fillRange := by
  funext u
  rw [FillEnd, if_neg (by simp [hn, hdvd]), if_neg (Nat.not_lt.2 hlong)]

/-- From any chunk on, where the average share is at least 12 bytes: the run completes, or reaches a chunk beyond the end. -/
theorem RunInv.chunks_end {s : State} (h : RunInv s) (hin : s.inputs = []) (hst : s.stage = .cfChunk)
    (havg : 12 ≤ memBytes s.ver / s.numChunks.toNat) :
    RunsTo s.stepsLeft (FillEnd (memBytes s.ver) s.numChunks.toNat) s := by
  obtain ⟨hver, hk, -⟩ : (s.ver = 2 ∨ s.ver = 3) ∧ s.iNat < s.numChunks.toNat ∧ s.j = 0 := h.seq_at hst
  obtain ⟨-, hoff, hleft, hexact⟩ := h.fill hst
  have hc : decodeSeq (stageCode s.stage) = .ok .cfchunk := by rw [hst]; rfl
  have hs : s.stepsLeft = s.numChunks.toNat - s.iNat + s.mixSteps := State.stepsLeft_at hst
  have hlong := havg.trans (average_le_share hk hleft)
  by_cases hfit : s.iNat * ((memBytes s.ver - s.outOff.toNat) / (s.numChunks.toNat - s.iNat)) +
      (memBytes s.ver - s.outOff.toNat) / (s.numChunks.toNat - s.iNat) ≤ memBytes s.ver
  · obtain ⟨t, he, -, -, -, -, -, hnext, hfinal, hframed⟩ := cfchunkCompletes s hver hk hoff hfit hlong
    have hnum : t.numChunks = s.numChunks := by rw [hframed]
    obtain ⟨hstep, hframe, hinv⟩ := h.step_of_exec hin hc he
    have htin := hframe.inputs.trans hin
    have hmix : t.mixSteps = s.mixSteps := by rw [State.mixSteps, State.mixSteps, hframe.ver]
    rcases Nat.lt_or_eq_of_le (Nat.succ_le_of_lt hk) with hlt | hlast
    · obtain ⟨htst, hti, -⟩ := hnext hlt
      have ht : t.stepsLeft = t.numChunks.toNat - t.iNat + t.mixSteps := State.stepsLeft_at htst
      rw [hnum, hti, hmix] at ht
      have hcount : s.stepsLeft = t.stepsLeft + 1 := by omega
      have hrest := hinv.chunks_end htin htst (by rwa [hframe.ver, hnum])
      rw [hframe.ver, hnum] at hrest
      rw [hcount]
      exact .of_step hstep hrest
    · obtain ⟨htst, -⟩ := hfinal hlast
      have ht : t.stepsLeft = t.mixSteps := State.stepsLeft_at htst
      have hcount : s.stepsLeft = t.stepsLeft + 1 := by omega
      have hdvd := dvd_of_last_fits hlast hleft hfit
      rw [hcount, fillEnd_completed (.inr ⟨hdvd, havg⟩)]
      exact .of_step hstep (hinv.mix_completes htin (by rw [htst]; rfl))
  · have hdvd : ¬ s.numChunks.toNat ∣ memBytes s.ver := fun hd =>
      hfit (chunk_fits_of_dvd hk hoff hleft hexact hd)
    obtain ⟨n, hn⟩ : ∃ n, s.stepsLeft = n + 1 := ⟨s.stepsLeft - 1, by omega⟩
    rw [hn, fillEnd_range (by omega) havg hdvd]
    obtain ⟨t, he, -, ht⟩ := (cfchunkFaults s hver hk hoff).1 (Nat.lt_of_not_le hfit)
    exact h.faults_of_exec n hin hc he ⟨congrArg State.stage ht, congrArg State.err ht⟩
termination_by s.stepsLeft
decreasing_by exact Nat.lt_of_lt_of_eq (Nat.lt_succ_self _) hcount.symm

/-- At the first chunk a share of less than 12 bytes fits, and is too short (44_chacha_fill.md R205). -/
theorem RunInv.first_chunk_short {s : State} (n : Nat) (h : RunInv s) (hin : s.inputs = []) (hst : s.stage = .cfChunk)
    (hi : s.iNat = 0) (hoff : s.outOff.toNat = 0) (hshort : memBytes s.ver / s.numChunks.toNat < 12) :
    RunsTo (n + 1) (Faulted .fillNonceShort) s := by
  obtain ⟨hver, hk, -⟩ : (s.ver = 2 ∨ s.ver = 3) ∧ s.iNat < s.numChunks.toNat ∧ s.j = 0 := h.seq_at hst
  have hcur : (memBytes s.ver - s.outOff.toNat) / (s.numChunks.toNat - s.iNat) = memBytes s.ver / s.numChunks.toNat := by
    rw [hoff, hi, Nat.sub_zero, Nat.sub_zero]
  obtain ⟨-, hfault⟩ := cfchunkFaults s hver hk (by omega)
  rw [hcur, hi, Nat.zero_mul, Nat.zero_add] at hfault
  obtain ⟨t, he, -, ht⟩ := hfault (Nat.div_le_self _ _) hshort
  exact h.faults_of_exec n hin (by rw [hst]; rfl) he ⟨congrArg State.stage ht, congrArg State.err ht⟩

/-- From `S_CF_SEED` on, the run ends as its count of chunks says. -/
theorem RunInv.seed_ends {s : State} (h : RunInv s) (hin : s.inputs = []) (hst : s.stage = .cfSeed) :
    RunsTo s.stepsLeft (FillEnd (memBytes s.ver) ((s.len.toNat + 31) / 32)) s := by
  have hs : s.stepsLeft = 1 + (chunkCount s.len).toNat + s.mixSteps := State.stepsLeft_at hst
  obtain ⟨t, he, -, -, hoff, hcount, hstage, hi, -, -⟩ := cfseed s
  obtain ⟨hstep, hframe, hinv⟩ := h.step_of_exec hin (by rw [hst]; rfl) he
  have htin := hframe.inputs.trans hin
  have hmix : t.mixSteps = s.mixSteps := by rw [State.mixSteps, State.mixSteps, hframe.ver]
  rw [toNat_chunkCount, ← hcount] at hs
  rw [← hcount] at hstage ⊢
  rw [← hframe.ver]
  by_cases h0 : t.numChunks.toNat = 0
  · rw [if_pos h0] at hstage
    have ht : t.stepsLeft = t.mixSteps := State.stepsLeft_at hstage
    rw [show s.stepsLeft = t.stepsLeft + 1 by omega, fillEnd_completed (.inl h0)]
    exact .of_step hstep (hinv.mix_completes htin (by rw [hstage]; rfl))
  · rw [if_neg h0] at hstage
    have ht : t.stepsLeft = t.numChunks.toNat - t.iNat + t.mixSteps := State.stepsLeft_at hstage
    have hi' : t.iNat = 0 := congrArg BitVec.toNat hi
    have hsteps : s.stepsLeft = t.stepsLeft + 1 := by omega
    by_cases havg : memBytes t.ver / t.numChunks.toNat < 12
    · obtain ⟨n, hn⟩ : ∃ n, t.stepsLeft = n + 1 := ⟨t.stepsLeft - 1, by omega⟩
      rw [hsteps, hn, fillEnd_short h0 havg]
      exact .of_step hstep (hinv.first_chunk_short n htin hstage hi' (congrArg BitVec.toNat hoff) havg)
    · rw [hsteps]
      exact .of_step hstep (hinv.chunks_end htin hstage (Nat.le_of_not_lt havg))

/-- From `S_CF_ZERO` on: the first step leaves the input alone. -/
theorem RunInv.zero_ends {s : State} (h : RunInv s) (hin : s.inputs = []) (hst : s.stage = .cfZero) :
    RunsTo s.stepsLeft (FillEnd (memBytes s.ver) ((s.len.toNat + 31) / 32)) s := by
  obtain ⟨hver, -, -⟩ : (s.ver = 2 ∨ s.ver = 3) ∧ s.i = 0 ∧ s.j = 0 := h.seq_at hst
  obtain ⟨hstep, hframe, hinv⟩ := h.step_of_exec hin (by rw [hst]; rfl) (exec_cfzero_next hver)
  have hs : s.stepsLeft = ((s.zeroPad (memBytes s.ver)).goto .cfSeed 0 0).stepsLeft + 1 := by
    have hz : s.stepsLeft = 2 + (chunkCount s.len).toNat + s.mixSteps := State.stepsLeft_at hst
    show _ = 1 + (chunkCount s.len).toNat + s.mixSteps + 1
    omega
  rw [hs]
  exact .of_step hstep (hinv.seed_ends (hframe.inputs.trans hin) rfl)

/-- Settles O13: an accepted `START` begins a v2 or v3 run at `S_CF_ZERO`, and `RunInv.zero_ends` follows it to its end. -/
theorem fillOutcome : Obligations.FillOutcome := by
  intro s t hs hrest hver hin hstart hfault n
  rw [exec_start_of_rest hrest] at hstart
  cases hstart
  have hinv := hs.startRun
  have haccept : s.startFault = .none := Decidable.not_not.1 fun he => hfault (by rw [State.startRun_of_fault he]; rfl)
  have hne : ¬ s.ver = 1 := by
    rcases hver with hver | hver
    all_goals rw [hver]; decide
  rw [State.startRun_of_accepted haccept, if_neg hne] at hinv ⊢
  exact hinv.zero_ends hin rfl

end Sys2Proof.Machine

/-! The statements on the v2 mix (45_v2_mix.md): the set-up that v2 and v3 share, the values of the branch table, and the end
of an outer iteration. -/

namespace Sys2Proof.Machine

/-! ### The set-up -/

/-- A shift to the right on numbers (40_arith.md R118): the bits that are left are a quotient. -/
theorem ushiftRight_eq_ofNat_div (x : Word) (n : Nat) : x >>> n = BitVec.ofNat 64 (x.toNat / 2 ^ n) := by
  rw [← Nat.shiftRight_eq_div_pow, ← BitVec.toNat_ushiftRight, BitVec.ofNat_toNat, BitVec.setWidth_eq]

/-- `MXSETUP` with the half's length of the running version (45_v2_mix.md R220). -/
theorem exec_mxsetup_of_half {s : State} {half : Nat} (hver : s.ver = 2 ∨ s.ver = 3) (hhalf : halfWords s.ver = half) :
    exec .mxsetup s = .next { s with
      addrA := s.pad64 (half + (half - 1)), addrB := BitVec.ofNat 64 ((s.pad64 (half - 1)).toNat / 2 ^ 32), r := 0,
      stage := if s.ver = 2 then .v2Head else .v3Head, i := 0, j := 0 } := by
  rw [← ushiftRight_eq_ofNat_div, ← hhalf]
  exact if_pos (mixVer_of_or hver)

/-- Settles O40: the half's length and the head of the mix, by version. -/
theorem mxsetup : Obligations.Mxsetup := by
  refine fun s => ⟨fun hver => ?_, fun hver => ?_⟩
  · rw [exec_mxsetup_of_half (half := 27456) (.inl hver) (by rw [hver]; rfl), if_pos hver]
  · have hne : ¬ s.ver = 2 := by rw [hver]; decide
    rw [exec_mxsetup_of_half (half := 33984) (.inr hver) (by rw [hver]; rfl), if_neg hne]

/-! ### The values of the branch table, on numbers -/

theorem toNat_v2b0 (o : MixOperands) :
    (v2b0 o).toNat = o.result.toNat ^^^ (natRotl o.c.toNat (o.i * o.j).toNat ^^^ o.b.toNat) := by
  rw [v2b0, BitVec.toNat_xor, BitVec.toNat_xor, toNat_rotl]

theorem toNat_v2b1 (o : MixOperands) :
    (v2b1 o).toNat = o.result.toNat ^^^ (natRotr o.c.toNat (o.i * o.j).toNat ^^^ o.a.toNat) := by
  rw [v2b1, BitVec.toNat_xor, BitVec.toNat_xor, toNat_rotr]

theorem toNat_v2b2 (o : MixOperands) :
    (v2b2 o).toNat = o.result.toNat ^^^ (o.a.toNat ^^^ o.b.toNat ^^^ o.c.toNat) := by
  rw [v2b2, BitVec.toNat_xor, BitVec.toNat_xor, BitVec.toNat_xor]

theorem toNat_v2b3 (o : MixOperands) :
    (v2b3 o).toNat = o.result.toNat ^^^ ((o.a.toNat + o.b.toNat) * o.c.toNat) % 2 ^ 64 := by
  rw [v2b3, BitVec.toNat_xor, BitVec.toNat_mul, BitVec.toNat_add, Nat.mod_mul_mod]

theorem toNat_v2b4 (o : MixOperands) :
    (v2b4 o).toNat = o.result.toNat ^^^ ((o.b.toNat + 2 ^ 64 - o.c.toNat) * o.a.toNat) % 2 ^ 64 := by
  rw [v2b4, BitVec.toNat_xor, BitVec.toNat_mul, toNat_sub_word, Nat.mod_mul_mod]

theorem toNat_v2b5 (o : MixOperands) :
    (v2b5 o).toNat = o.result.toNat ^^^ (o.c.toNat + 2 ^ 64 - o.a.toNat + o.b.toNat) % 2 ^ 64 := by
  rw [v2b5, BitVec.toNat_xor, BitVec.toNat_add, toNat_sub_word, Nat.mod_add_mod]

theorem toNat_v2b6 (o : MixOperands) :
    (v2b6 o).toNat = o.result.toNat ^^^ (o.a.toNat + 2 ^ 64 - o.b.toNat + o.c.toNat) % 2 ^ 64 := by
  rw [v2b6, BitVec.toNat_xor, BitVec.toNat_add, toNat_sub_word, Nat.mod_add_mod]

theorem toNat_v2b7 (o : MixOperands) :
    (v2b7 o).toNat = o.result.toNat ^^^ (o.b.toNat * o.c.toNat + o.a.toNat) % 2 ^ 64 := by
  rw [v2b7, BitVec.toNat_xor, BitVec.toNat_add, BitVec.toNat_mul, Nat.mod_add_mod]

theorem toNat_v2b8 (o : MixOperands) :
    (v2b8 o).toNat = o.result.toNat ^^^ (o.c.toNat * o.a.toNat + o.b.toNat) % 2 ^ 64 := by
  rw [v2b8, BitVec.toNat_xor, BitVec.toNat_add, BitVec.toNat_mul, Nat.mod_add_mod]

theorem toNat_v2b9 (o : MixOperands) :
    (v2b9 o).toNat = o.result.toNat ^^^ (o.a.toNat * o.b.toNat * o.c.toNat) % 2 ^ 64 := by
  rw [v2b9, BitVec.toNat_xor, BitVec.toNat_mul, BitVec.toNat_mul, Nat.mod_mul_mod]

/-- `low64` of a remainder by a word that is not 0 loses nothing (45_v2_mix.md R233). -/
theorem toNat_low64_umod_u128 (w : Wide) {d : Word} (hd : 0 < d.toNat) :
    (low64 (w % u128 d)).toNat = w.toNat % d.toNat := by
  have hfits : w.toNat % d.toNat < 2 ^ 64 := (Nat.mod_lt _ hd).trans d.isLt
  rw [toNat_low64, BitVec.toNat_umod, toNat_u128, Nat.mod_eq_of_lt hfits]

theorem toNat_v2b10 (o : MixOperands) :
    (v2b10 o).toNat = o.result.toNat ^^^ natCombine o.a.toNat o.b.toNat % (o.c.toNat ||| 1) := by
  have hdivisor : (o.c ||| 1).toNat = o.c.toNat ||| 1 := BitVec.toNat_or o.c 1
  have hpos : 0 < o.c.toNat ||| 1 := Nat.right_le_or
  rw [v2b10, BitVec.toNat_xor, toNat_low64_umod_u128 _ (hdivisor ▸ hpos), toNat_combine, hdivisor]

theorem toNat_v2b11 (o : MixOperands) :
    (v2b11 o).toNat = o.result.toNat ^^^ natCombine o.b.toNat o.c.toNat %
      natCombine (natRotl o.result.toNat o.r.toNat) (o.a.toNat ||| 2) % 2 ^ 64 := by
  rw [v2b11, BitVec.toNat_xor, toNat_low64, BitVec.toNat_umod, toNat_combine, toNat_combine, toNat_rotl, BitVec.toNat_or]
  rfl

theorem toNat_v2b12 (o : MixOperands) :
    (v2b12 o).toNat = o.result.toNat ^^^ natCombine o.c.toNat o.a.toNat / (o.b.toNat ||| 4) % 2 ^ 64 := by
  rw [v2b12, BitVec.toNat_xor, toNat_low64, BitVec.toNat_udiv, toNat_combine, toNat_u128, BitVec.toNat_or]
  rfl

theorem toNat_v2b13 (o : MixOperands) :
    let t1 := natCombine (natRotl o.result.toNat o.r.toNat) o.b.toNat
    let t2 := natCombine o.a.toNat (o.c.toNat ||| 8)
    (v2b13 o).toNat = o.result.toNat ^^^ (if t2 < t1 then t1 / t2 % 2 ^ 64 else o.a.toNat ^^^ o.b.toNat) := by
  intro t1 t2
  have ht1 : (combine (rotl o.result o.r.toNat) o.b).toNat = t1 := by rw [toNat_combine, toNat_rotl]
  have ht2 : (combine o.a (o.c ||| 8)).toNat = t2 := by rw [toNat_combine, BitVec.toNat_or]; rfl
  simp only [v2b13, BitVec.toNat_xor, apply_ite BitVec.toNat, BitVec.lt_def, toNat_low64, BitVec.toNat_udiv, ht1, ht2]

theorem toNat_v2b14 (o : MixOperands) :
    (v2b14 o).toNat = o.result.toNat ^^^ natCombine o.b.toNat o.a.toNat * o.c.toNat % 2 ^ 128 / 2 ^ 64 := by
  rw [v2b14, BitVec.toNat_xor, toNat_high64, BitVec.toNat_mul, toNat_combine, toNat_u128]

theorem toNat_v2b15 (o : MixOperands) :
    (v2b15 o).toNat = o.result.toNat ^^^ natCombine o.a.toNat o.c.toNat *
      natCombine (natRotr o.result.toNat o.r.toNat) o.b.toNat % 2 ^ 128 / 2 ^ 64 := by
  rw [v2b15, BitVec.toNat_xor, toNat_high64, BitVec.toNat_mul, toNat_combine, toNat_combine, toNat_rotr]

/-! ### The operands of the branch table, on numbers -/

/-- The second operand (45_v2_mix.md R222): its index is the complement of a rotation of `RESULT`. -/
theorem State.v2Operands_b (s : State) :
    s.v2Operands.b = s.pad64 (27456 + (2 ^ 64 - 1 - natRotr s.result.toNat s.r.toNat) % 27456) := by
  rw [← toNat_rotr, ← BitVec.toNat_not]
  rfl

/-- The operands' cursor is the advanced one (10_state.md R33). -/
theorem State.v2Operands_r (s : State) : s.v2Operands.r.toNat = (s.r.toNat + 1) % 54912 :=
  toNat_nextCursor words2 (by decide) (by decide) s.r

/-- The rotate amount `i·j` does not wrap (45_v2_mix.md R223): `SEQ.I` and `SEQ.J` are 32 bits wide. -/
theorem State.v2Operands_i_mul_j (s : State) : (s.v2Operands.i * s.v2Operands.j).toNat = s.iNat * s.jNat := by
  have hi : s.v2Operands.i.toNat = s.iNat := BitVec.toNat_setWidth_of_le (by decide)
  have hj : s.v2Operands.j.toNat = s.jNat := BitVec.toNat_setWidth_of_le (by decide)
  have hfits : s.iNat * s.jNat < 2 ^ 64 :=
    calc s.iNat * s.jNat < 2 ^ 32 * 2 ^ 32 := Nat.mul_lt_mul'' s.i.isLt s.j.isLt
      _ = 2 ^ 64 := by decide
  rw [BitVec.toNat_mul, hi, hj, Nat.mod_eq_of_lt hfits]

/-! ### The two halves of the branch table -/

/-- An operation that is the step of `STEP2` with an entry has the effect of the entry's value (45_v2_mix.md R222; log 9). -/
theorem v2Effect_of_entry {s : State} (hj : s.jNat < 27456) (hr : s.r.toNat < 54912) {c : Instr}
    {entry : MixOperands → Word} (hexec : exec c s = v2Step entry s) {v : Nat} (hvalue : (entry s.v2Operands).toNat = v) :
    ∃ t, exec c s = .next t ∧ V2Effect v s t := by
  rw [hexec, ← hvalue]
  exact v2Step_spec entry s hj hr

/-- Settles O43: each operation is the step with its entry, whose value on numbers is its own `toNat_` lemma. -/
theorem v2TableLow : Obligations.V2TableLow := by
  intro s hj hr x a b c
  have hb : b = s.v2Operands.b.toNat := congrArg BitVec.toNat s.v2Operands_b.symm
  rw [hb, ← s.v2Operands_i_mul_j]
  exact ⟨v2Effect_of_entry hj hr rfl (toNat_v2b0 _), v2Effect_of_entry hj hr rfl (toNat_v2b1 _),
    v2Effect_of_entry hj hr rfl (toNat_v2b2 _), v2Effect_of_entry hj hr rfl (toNat_v2b3 _),
    v2Effect_of_entry hj hr rfl (toNat_v2b4 _), v2Effect_of_entry hj hr rfl (toNat_v2b5 _),
    v2Effect_of_entry hj hr rfl (toNat_v2b6 _), v2Effect_of_entry hj hr rfl (toNat_v2b7 _)⟩

/-- Settles O44: as `v2TableLow`, for the upper half of the table, with the advanced cursor. -/
theorem v2TableHigh : Obligations.V2TableHigh := by
  intro s hj hr x a b c r
  have hb : b = s.v2Operands.b.toNat := congrArg BitVec.toNat s.v2Operands_b.symm
  have hcursor : r = s.v2Operands.r.toNat := s.v2Operands_r.symm
  rw [hb, hcursor]
  exact ⟨v2Effect_of_entry hj hr rfl (toNat_v2b8 _), v2Effect_of_entry hj hr rfl (toNat_v2b9 _),
    v2Effect_of_entry hj hr rfl (toNat_v2b10 _), v2Effect_of_entry hj hr rfl (toNat_v2b11 _),
    v2Effect_of_entry hj hr rfl (toNat_v2b12 _), v2Effect_of_entry hj hr rfl (toNat_v2b13 _),
    v2Effect_of_entry hj hr rfl (toNat_v2b14 _), v2Effect_of_entry hj hr rfl (toNat_v2b15 _)⟩

/-! ### The end of an outer iteration -/

/-- `isqrt` is the floor of the square root (40_arith.md R125), in Mathlib's terms. -/
theorem toNat_isqrt_eq_sqrt (x : Word) : (isqrt x).toNat = Nat.sqrt x.toNat :=
  Nat.eq_sqrt.2 (isqrtFloor x)

/-- `TAIL2` moves on to the next outer iteration, and from the last one to `FIN` (45_v2_mix.md R240). -/
theorem exec_tail2_goto {s : State} (hi : s.iNat ≤ 2) :
    ∃ st i, exec .tail2 s = .next (({ s with addrA := s.result, addrB := isqrt s.result } : State).goto st i 0) ∧
      (s.iNat < 2 → st = .v2Head ∧ i.toNat = s.iNat + 1) ∧ (s.iNat = 2 → st = .fin ∧ i = 0) := by
  rcases Nat.lt_or_eq_of_le hi with hlt | heq
  · refine ⟨.v2Head, s.i + 1, congrArg Host.Outcome.next (if_pos hlt), fun _ => ⟨rfl, ?_⟩, fun h => by omega⟩
    exact State.toNat_succ (n := 2) hlt (by decide)
  · have hnot : ¬ s.iNat < 2 := by omega
    exact ⟨.fin, 0, congrArg Host.Outcome.next (if_neg hnot), fun h => absurd h hnot, fun _ => ⟨rfl, rfl⟩⟩

/-- Settles O45: the position is that of `exec_tail2_goto`, the second address `toNat_isqrt_eq_sqrt`. -/
theorem tail2 : Obligations.Tail2 := by
  intro s hiter
  obtain ⟨st, i, hexec, hnext, hlast⟩ := exec_tail2_goto hiter
  exact ⟨_, hexec, rfl, toNat_isqrt_eq_sqrt s.result, fun h => (hnext h).imp_right fun hsucc => ⟨hsucc, rfl⟩,
    fun h => (hlast h).imp_right fun hzero => ⟨hzero, rfl⟩, rfl⟩

end Sys2Proof.Machine

/-! The statements on the v3 mix (46_v3_mix.md): the values of the branch table, the guard of `V3.B11`, and the end of an
iteration. -/

namespace Sys2Proof.Machine

/-! ### The guard of `V3.B11` -/

theorem low64_combine (hi lo : Word) : low64 (combine hi lo) = lo := by
  apply BitVec.eq_of_toNat_eq
  rw [toNat_low64, toNat_combine, natCombine, Nat.mul_add_mod_self_right, Nat.mod_eq_of_lt lo.isLt]

/-- The guard answers what the remainder is: a dividend below the divisor is its own remainder (46_v3_mix.md R263). -/
theorem v3b11_eq_low64_umod (o : MixOperands) :
    v3b11 o = low64 (combine o.b o.c % combine (rotl o.result o.r.toNat) (o.a ||| 2)) := by
  rw [v3b11]
  split
  · next hlt => rw [BitVec.umod_eq_of_lt hlt, low64_combine]
  · rfl

theorem v2b11_eq_xor_v3b11 (o : MixOperands) : v2b11 o = o.result ^^^ v3b11 o := by
  rw [v3b11_eq_low64_umod, v2b11]

/-- Settles O22: `V2.B11` is the unguarded value under its XOR, which cancels. -/
theorem v3B11Guard : Obligations.V3B11Guard := by
  intro o
  rw [v2b11_eq_xor_v3b11, BitVec.xor_comm, ← BitVec.xor_assoc, BitVec.xor_self, BitVec.zero_xor]

/-- The value of `V3.B11` with its guard as the rule writes it (46_v3_mix.md R263). -/
theorem toNat_v3b11 (o : MixOperands) :
    let d1 := natCombine o.b.toNat o.c.toNat
    let d2 := natCombine (natRotl o.result.toNat o.r.toNat) (o.a.toNat ||| 2)
    (v3b11 o).toNat = if d1 < d2 then o.c.toNat else d1 % d2 % 2 ^ 64 := by
  intro d1 d2
  have hd1 : (combine o.b o.c).toNat = d1 := toNat_combine o.b o.c
  have hd2 : (combine (rotl o.result o.r.toNat) (o.a ||| 2)).toNat = d2 := by
    rw [toNat_combine, toNat_rotl, BitVec.toNat_or]; rfl
  simp only [v3b11, apply_ite BitVec.toNat, BitVec.lt_def, toNat_low64, BitVec.toNat_umod, hd1, hd2]

/-! ### The values that are those of the v2 table -/

/-- `V3.B3` to `V3.B15` are entries of the v2 table without the XOR with `RESULT` (46_v3_mix.md R255 to R267), so the value of
one is read off the value of the other. -/
theorem toNat_of_xor_result {result v2 v3 : Word} {n : Nat} (hxor : v2 = result ^^^ v3) (h : v2.toNat = result.toNat ^^^ n) :
    v3.toNat = n := by
  rw [hxor, BitVec.toNat_xor] at h
  exact Nat.xor_right_injective h

/-! ### The values that have no counterpart in the v2 table -/

/-- `sqrt_nz` on numbers (40_arith.md R126). -/
theorem toNat_sqrtNz (x : Word) : (sqrtNz x).toNat = max (Nat.sqrt x.toNat) 1 := by
  have hroot : isqrt x = 0 ↔ Nat.sqrt x.toNat = 0 := by rw [← toNat_isqrt_eq_sqrt, BitVec.toNat_eq]; rfl
  rw [sqrtNz]
  split
  · next hzero => rw [hroot.1 hzero]; rfl
  · next hne => rw [toNat_isqrt_eq_sqrt, Nat.max_eq_left (Nat.one_le_iff_ne_zero.2 (mt hroot.2 hne))]

/-- The root of a word is a half. -/
theorem sqrt_toNat_lt (x : Word) : Nat.sqrt x.toNat < 2 ^ 32 :=
  Nat.sqrt_lt.2 (x.isLt.trans_eq (by decide))

/-- A product of two roots does not wrap (46_v3_mix.md R254). -/
theorem toNat_isqrt_mul_isqrt (x y : Word) : (isqrt x * isqrt y).toNat = Nat.sqrt x.toNat * Nat.sqrt y.toNat := by
  have hfits : Nat.sqrt x.toNat * Nat.sqrt y.toNat < 2 ^ 32 * 2 ^ 32 := Nat.mul_lt_mul'' (sqrt_toNat_lt x) (sqrt_toNat_lt y)
  rw [BitVec.toNat_mul, toNat_isqrt_eq_sqrt, toNat_isqrt_eq_sqrt, Nat.mod_eq_of_lt (hfits.trans_eq (by decide))]

theorem toNat_v3b0 (o : MixOperands) :
    (v3b0 o).toNat = natCombine ((o.a.toNat + o.i.toNat) % 2 ^ 64) (Nat.sqrt ((o.b.toNat + o.j.toNat) % 2 ^ 64)) %
      ((murmurhash3 (o.c ^^^ o.result ^^^ o.i ^^^ o.j)).toNat ||| 1) := by
  generalize hm : murmurhash3 (o.c ^^^ o.result ^^^ o.i ^^^ o.j) = m
  have hdivisor : (m ||| 1).toNat = m.toNat ||| 1 := BitVec.toNat_or m 1
  have hpos : 0 < m.toNat ||| 1 := Nat.right_le_or
  rw [v3b0, hm, toNat_low64_umod_u128 _ (hdivisor ▸ hpos), toNat_combine, toNat_isqrt_eq_sqrt, BitVec.toNat_add,
    BitVec.toNat_add, hdivisor]

theorem toNat_v3b1 (o : MixOperands) :
    (v3b1 o).toNat = natRotl ((o.c.toNat + o.i.toNat) % 2 ^ 64 % max (Nat.sqrt (o.b.toNat ||| 2)) 1) (o.i + o.j).toNat *
      Nat.sqrt ((o.a.toNat + o.j.toNat) % 2 ^ 64) % 2 ^ 64 := by
  rw [v3b1, BitVec.toNat_mul, toNat_rotl, BitVec.toNat_umod, toNat_sqrtNz, toNat_isqrt_eq_sqrt, BitVec.toNat_add o.c,
    BitVec.toNat_add o.a, BitVec.toNat_or]
  rfl

theorem toNat_v3b2 (o : MixOperands) :
    (v3b2 o).toNat = Nat.sqrt ((o.a.toNat + o.i.toNat) % 2 ^ 64) * Nat.sqrt ((o.c.toNat + o.j.toNat) % 2 ^ 64) ^^^
      (o.b.toNat + o.i.toNat + o.j.toNat) % 2 ^ 64 := by
  rw [v3b2, BitVec.toNat_xor, toNat_isqrt_mul_isqrt, BitVec.toNat_add, BitVec.toNat_add, BitVec.toNat_add,
    BitVec.toNat_add, Nat.mod_add_mod]

/-! ### The operands of the branch table, on numbers -/

/-- The second operand (46_v3_mix.md R251): its index depends on the word just read. -/
theorem State.v3Operands_b (s : State) :
    s.v3Operands.b =
      s.pad64 (33984 + mapIndex (BitVec.ofNat 64 s.v3Operands.a.toNat ^^^ ~~~ rotr s.result s.r.toNat)) := by
  rw [BitVec.ofNat_toNat, BitVec.setWidth_eq]
  rfl

/-- The operands' cursor is the advanced one (10_state.md R33). -/
theorem State.v3Operands_r (s : State) : s.v3Operands.r.toNat = (s.r.toNat + 1) % 67968 :=
  toNat_nextCursor words3 (by decide) (by decide) s.r

theorem State.v3Operands_i (s : State) : s.v3Operands.i.toNat = s.iNat := BitVec.toNat_setWidth_of_le (by decide)

theorem State.v3Operands_j (s : State) : s.v3Operands.j.toNat = s.jNat := BitVec.toNat_setWidth_of_le (by decide)

/-- The rotate amount `i + j` does not wrap (46_v3_mix.md R253): `SEQ.I` and `SEQ.J` are 32 bits wide. -/
theorem State.v3Operands_i_add_j (s : State) : (s.v3Operands.i + s.v3Operands.j).toNat = s.iNat + s.jNat := by
  have hfits : s.iNat + s.jNat < 2 ^ 32 + 2 ^ 32 := Nat.add_lt_add s.i.isLt s.j.isLt
  rw [BitVec.toNat_add, s.v3Operands_i, s.v3Operands_j, Nat.mod_eq_of_lt (hfits.trans (by decide))]

/-- A word is the word of its number, so an XOR may be taken on numbers. -/
theorem ofNat_xor_toNat (x y z w : Word) :
    BitVec.ofNat 64 (x.toNat ^^^ y.toNat ^^^ z.toNat ^^^ w.toNat) = x ^^^ y ^^^ z ^^^ w := by
  rw [← BitVec.toNat_xor, ← BitVec.toNat_xor, ← BitVec.toNat_xor, BitVec.ofNat_toNat, BitVec.setWidth_eq]

/-! ### The two halves of the branch table -/

/-- An operation that is the step of `STEP3` with an entry has the effect of the entry's value (46_v3_mix.md R251; log 9). -/
theorem v3Effect_of_entry {s : State} (hj : s.jNat < 33984) (hr : s.r.toNat < 67968) {c : Instr}
    {entry : MixOperands → Word} (hexec : exec c s = v3Step entry s) {v : Nat} (hvalue : (entry s.v3Operands).toNat = v) :
    ∃ t, exec c s = .next t ∧ V3Effect v s t := by
  rw [hexec, ← hvalue]
  exact v3Step_spec entry s hj hr

/-- An operation whose entry is the v2 entry `v2` without the XOR has the effect of what `v2` XORs with `RESULT`. -/
theorem v3Effect_of_v2_entry {s : State} (hj : s.jNat < 33984) (hr : s.r.toNat < 67968) {c : Instr}
    {v2 entry : MixOperands → Word} (hexec : exec c s = v3Step entry s)
    (hxor : v2 s.v3Operands = s.v3Operands.result ^^^ entry s.v3Operands) {v : Nat}
    (hvalue : (v2 s.v3Operands).toNat = s.v3Operands.result.toNat ^^^ v) :
    ∃ t, exec c s = .next t ∧ V3Effect v s t :=
  v3Effect_of_entry hj hr hexec (toNat_of_xor_result hxor hvalue)

/-- Settles O48: each operation is the step with its entry; the first three values are the `toNat_` lemmas above, the others
those of the v2 table. -/
theorem v3TableLow : Obligations.V3TableLow := by
  intro s hj hr x a b c i j m
  have hb : b = s.v3Operands.b.toNat := congrArg BitVec.toNat s.v3Operands_b.symm
  have hi : i = s.v3Operands.i.toNat := s.v3Operands_i.symm
  have hpass : j = s.v3Operands.j.toNat := s.v3Operands_j.symm
  have hsum : i + j = (s.v3Operands.i + s.v3Operands.j).toNat := s.v3Operands_i_add_j.symm
  have hm : m = (murmurhash3 (s.v3Operands.c ^^^ s.v3Operands.result ^^^ s.v3Operands.i ^^^ s.v3Operands.j)).toNat := by
    rw [← ofNat_xor_toNat, ← hi, ← hpass]
    rfl
  rw [hb, hm, hsum, hi, hpass]
  exact ⟨v3Effect_of_entry hj hr rfl (toNat_v3b0 _), v3Effect_of_entry hj hr rfl (toNat_v3b1 _),
    v3Effect_of_entry hj hr rfl (toNat_v3b2 _), v3Effect_of_v2_entry hj hr rfl rfl (toNat_v2b3 _),
    v3Effect_of_v2_entry hj hr rfl rfl (toNat_v2b4 _), v3Effect_of_v2_entry hj hr rfl rfl (toNat_v2b5 _),
    v3Effect_of_v2_entry hj hr rfl rfl (toNat_v2b6 _), v3Effect_of_v2_entry hj hr rfl rfl (toNat_v2b7 _)⟩

/-- Settles O49: the values are those of the v2 table, with the advanced cursor; the guarded `V3.B11` has its own lemma. -/
theorem v3TableHigh : Obligations.V3TableHigh := by
  intro s hj hr x a b c r d1 d2 q1 q2
  have hb : b = s.v3Operands.b.toNat := congrArg BitVec.toNat s.v3Operands_b.symm
  have hcursor : r = s.v3Operands.r.toNat := s.v3Operands_r.symm
  simp only [d1, d2, q1, q2]
  rw [hb, hcursor]
  exact ⟨v3Effect_of_v2_entry hj hr rfl rfl (toNat_v2b8 _), v3Effect_of_v2_entry hj hr rfl rfl (toNat_v2b9 _),
    v3Effect_of_v2_entry hj hr rfl rfl (toNat_v2b10 _), v3Effect_of_entry hj hr rfl (toNat_v3b11 _),
    v3Effect_of_v2_entry hj hr rfl rfl (toNat_v2b12 _), v3Effect_of_v2_entry hj hr rfl rfl (toNat_v2b13 _),
    v3Effect_of_v2_entry hj hr rfl rfl (toNat_v2b14 _), v3Effect_of_v2_entry hj hr rfl rfl (toNat_v2b15 _)⟩

/-! ### The end of an iteration -/

/-- The second address of `TAIL3` on numbers (46_v3_mix.md R270): `R + 1` and both products wrap, so one reduction is left. -/
theorem toNat_isqrt_mul_succ_mul_isqrt (x r y : Word) :
    (isqrt x * (r + 1) * isqrt y).toNat = Nat.sqrt x.toNat * (r.toNat + 1) * Nat.sqrt y.toNat % 2 ^ 64 := by
  have hsucc : (r + 1).toNat = (r.toNat + 1) % 2 ^ 64 := BitVec.toNat_add r 1
  rw [BitVec.toNat_mul, BitVec.toNat_mul, toNat_isqrt_eq_sqrt, toNat_isqrt_eq_sqrt, hsucc, Nat.mul_mod_mod, Nat.mod_mul_mod]

/-- `TAIL3` moves on to the next iteration, and from the last one to `FIN` (46_v3_mix.md R270). -/
theorem exec_tail3_goto {s : State} (hi : s.iNat ≤ 1) :
    let addrA := modpow s.params s.addrA s.addrB s.result
    ∃ st i, exec .tail3 s = .next (({ s with
          addrA := addrA, addrB := isqrt s.result * (s.r + 1) * isqrt addrA } : State).goto st i 0) ∧
      (s.iNat < 1 → st = .v3Head ∧ i.toNat = s.iNat + 1) ∧ (s.iNat = 1 → st = .fin ∧ i = 0) := by
  intro addrA
  rcases Nat.lt_or_eq_of_le hi with hlt | heq
  · have hsucc : (s.i + 1).toNat = s.iNat + 1 := State.toNat_succ hlt (by decide)
    exact ⟨.v3Head, s.i + 1, congrArg Host.Outcome.next (if_pos hlt), fun _ => ⟨rfl, hsucc⟩, fun h => absurd h hlt.ne⟩
  · have hlast : ¬ s.iNat < 1 := heq.not_lt
    exact ⟨.fin, 0, congrArg Host.Outcome.next (if_neg hlast), fun h => absurd h hlast, fun _ => ⟨rfl, rfl⟩⟩

/-- Settles O50: the position is that of `exec_tail3_goto`, the second address `toNat_isqrt_mul_succ_mul_isqrt`. -/
theorem tail3 : Obligations.Tail3 := by
  intro s hiter
  obtain ⟨st, i, hexec, hnext, hlast⟩ := exec_tail3_goto hiter
  exact ⟨_, hexec, rfl, toNat_isqrt_mul_succ_mul_isqrt _ _ _, fun h => (hnext h).imp_right fun hsucc => ⟨hsucc, rfl⟩,
    fun h => (hlast h).imp_right fun hzero => ⟨hzero, rfl⟩, rfl⟩

end Sys2Proof.Machine

/-! The statements on the finalize operation and the host (47_finalize_host.md): what `FIN` and the reads of the digest give, what
the scratchpad port reads and writes, and what the top-level function `hash` answers. -/

namespace Sys2Proof.Machine

/-! ### FIN -/

/-- `FIN` with its constants, for the versions that have them (47_finalize_host.md R290). -/
theorem exec_fin_next {s : State} (hver : s.ver = 2 ∨ s.ver = 3) :
    exec .fin s =
      .next (({ s with digest := bytesToVector 32 (blake3 (s.padBytes 0 (memBytes s.ver))) } : State).goto .done 0 0) :=
  if_pos (mixVer_of_or hver)

theorem State.padBytes_zero (s : State) (n : Nat) : s.padBytes 0 n = (List.range n).map fun a => s.pad.read a := by
  simp only [State.padBytes, Memory.readBytes, Nat.zero_add]

/-- Settles O51: byte `k` of the register is byte `k` of the hash (`get_bytesToVector`). -/
theorem finDigest : Obligations.FinDigest := by
  intro s hver hash
  have hhash : blake3 (s.padBytes 0 (memBytes s.ver)) = hash := congrArg blake3 (s.padBytes_zero _)
  rw [exec_fin_next hver, hhash]
  clear_value hash
  exact ⟨_, rfl, get_bytesToVector hash, rfl⟩

/-! ### RDDIGEST, PADRD and PADWR -/

theorem exec_rddigest_byte_of_done {s : State} (hdone : s.stage = .done) (k : BitVec 5) :
    exec (.rddigest (.byte k)) s = .next (s.hostRead ((s.digest.get k.toFin).setWidth 64)) :=
  congrArg Host.Outcome.next (if_pos hdone)

/-- The four bytes of a word of `DIGEST` (47_finalize_host.md R300). -/
def State.digestWordBytes (s : State) (w : BitVec 3) : List Byte :=
  (List.range 4).map fun m => regGet s.digest (4 * w.toNat + m)

theorem exec_rddigest_word_of_done {s : State} (hdone : s.stage = .done) (w : BitVec 3) :
    exec (.rddigest (.word w)) s = .next (s.hostRead (BitVec.ofNat 64 (leValue (s.digestWordBytes w)))) :=
  congrArg Host.Outcome.next (if_pos hdone)

theorem State.length_digestWordBytes (s : State) (w : BitVec 3) : (s.digestWordBytes w).length = 4 := by
  rw [State.digestWordBytes, List.length_map, List.length_range]

theorem State.getD_digestWordBytes (s : State) (w : BitVec 3) {m : Nat} (hm : m < 4) :
    (s.digestWordBytes w).getD m 0 = regGet s.digest (4 * w.toNat + m) := by
  simp [State.digestWordBytes, List.getD_eq_getElem?_getD, hm]

/-- Settles O58 (the name `readDigest` is taken by the model's loop of `hash`): a word read has the value of four bytes
(`leValue_lt`), and its bytes are theirs (`extract_ofNat_leValue`). -/
theorem readDigestPort : Obligations.ReadDigest := by
  intro s hdone
  refine ⟨fun k => ⟨_, exec_rddigest_byte_of_done hdone k, ?_, rfl⟩,
    fun w => ⟨_, exec_rddigest_word_of_done hdone w, ?_, fun m hm => ?_, rfl⟩⟩
  · exact BitVec.toNat_setWidth_of_le (by decide)
  · have hfour := leValue_lt (s.digestWordBytes w)
    rw [s.length_digestWordBytes] at hfour
    rw [State.hostRead_hostData, BitVec.toNat_ofNat]
    omega
  · rw [State.hostRead_hostData, extract_ofNat_leValue 64 _ (by omega), s.getD_digestWordBytes w hm]

/-- The host reaches every word of the version's scratchpad (47_finalize_host.md R303, log 14). -/
theorem memWords_le_hostPadWords (ver : BitVec 2) : memWords ver ≤ hostPadWords ver := by
  rw [hostPadWords]
  split
  · exact memWords_le ver
  · exact Nat.le_refl _

/-- The scratchpad port at rest, at a word that the host reaches (47_finalize_host.md R303, R304). -/
theorem exec_padPort_of_rest {s : State} (hrest : s.busy = false) {k : BitVec 32} (hk : k.toNat < hostPadWords s.ver)
    (w : Word) :
    exec (.padrd k) s = .next (s.hostRead (s.pad64 k.toNat)) ∧ exec (.padwr k w) s = .next (s.setPad64 k.toNat w) := by
  have hb : ¬ s.busy = true := by simp [hrest]
  exact ⟨(if_neg hb).trans (if_pos hk), (if_neg hb).trans (if_pos hk)⟩

/-- Settles O59: the port's two commands, and what `setPad64` leaves in the word and outside it. -/
theorem padPort : Obligations.PadPort := by
  intro s k w hrest hk
  obtain ⟨hread, hwrite⟩ := exec_padPort_of_rest hrest (hk.trans_le (memWords_le_hostPadWords s.ver)) w
  exact ⟨hread, _, hwrite, (s.pad64_setPad64 _ _ w).trans (if_pos rfl), s.setPad64_padSameOutside _ w, rfl⟩

/-! ### The steps of a v1 run -/

/-- The stages of a v1 run, with the one that it ends in (10_state.md R25). -/
def Stage.runsV1 : Stage → Bool
  | .v1Absorb | .v1Fill | .v1Slotld | .v1Perm | .v1Slotwb | .v1Prime | .v1Head | .v1Br | .v1Tail | .done => true
  | _ => false

/-- A step of a v1 run: it raises no fault and takes one off the count. -/
structure V1Advances (s t : State) : Prop where
  runs : t.stage.runsV1 = true
  counts : s.stepsLeft = t.stepsLeft + 1

/-- A step of a v1 run, read at the stages that it leaves and reaches. -/
theorem v1Advances_of_stages {s t : State} {st st' : Stage} (m n : Nat) (hs : s.stage = st) (ht : t.stage = st')
    (hruns : st'.runsV1 = true) (hm : ({ s with stage := st } : State).stepsLeft = m)
    (hn : ({ t with stage := st' } : State).stepsLeft = n) (hmn : m = n + 1) : V1Advances s t :=
  ⟨by rw [ht]; exact hruns, by rw [State.stepsLeft_at hs, hm, State.stepsLeft_at ht, hn, hmn]⟩

theorem exec_absorb_advances {s : State} (hst : s.stage = .v1Absorb) :
    ∃ t, exec .absorb s = .next t ∧ V1Advances s t :=
  ⟨_, rfl, v1Advances_of_stages 171571 (1311 - 0 + 170259) hst rfl rfl rfl rfl (by omega)⟩

theorem exec_kfill_advances {s : State} (h : RunInv s) (hst : s.stage = .v1Fill) :
    ∃ t, exec .kfill s = .next t ∧ V1Advances s t := by
  obtain ⟨-, hi, -⟩ : s.ver = 1 ∧ s.iNat ≤ 1310 ∧ s.j = 0 := h.seq_at hst
  obtain ⟨t, ht, -, -, -, -, hnext, hlast, -⟩ := kfill s hi
  refine ⟨t, ht, ?_⟩
  rcases Nat.lt_or_eq_of_le hi with hlt | heq
  · obtain ⟨hstage, hti, -⟩ := hnext hlt
    exact v1Advances_of_stages (1311 - s.iNat + 170259) (1311 - t.iNat + 170259) hst hstage rfl rfl rfl (by omega)
  · obtain ⟨hstage, -⟩ := hlast heq
    exact v1Advances_of_stages (1311 - s.iNat + 170259) 170259 hst hstage rfl rfl rfl (by omega)

theorem exec_slotld_advances {s : State} (hst : s.stage = .v1Slotld) :
    ∃ t, exec .slotld s = .next t ∧ V1Advances s t :=
  ⟨_, rfl, v1Advances_of_stages 170259 (256 - 0 + 170002) hst rfl rfl rfl rfl (by omega)⟩

theorem exec_perm_advances {s : State} (h : RunInv s) (hst : s.stage = .v1Perm) :
    ∃ t, exec .perm s = .next t ∧ V1Advances s t := by
  obtain ⟨-, hi, hj⟩ : s.ver = 1 ∧ s.i = 0 ∧ s.jNat ≤ 255 := h.seq_at hst
  obtain ⟨t, ht, -, hnext, hlast, -⟩ := permSignedSum s hj
  refine ⟨t, ht, ?_⟩
  rcases Nat.lt_or_eq_of_le hj with hlt | heq
  · obtain ⟨hstage, -, htj⟩ := hnext hlt
    exact v1Advances_of_stages (256 - s.jNat + 170002) (256 - t.jNat + 170002) hst hstage rfl rfl rfl (by omega)
  · obtain ⟨hstage, -⟩ := hlast heq hi
    exact v1Advances_of_stages (256 - s.jNat + 170002) 170002 hst hstage rfl rfl rfl (by omega)

theorem exec_slotwb_advances {s : State} (hst : s.stage = .v1Slotwb) :
    ∃ t, exec .slotwb s = .next t ∧ V1Advances s t :=
  ⟨_, rfl, v1Advances_of_stages _ _ hst rfl rfl rfl rfl rfl⟩

theorem exec_prime_advances {s : State} (hst : s.stage = .v1Prime) :
    ∃ t, exec .prime s = .next t ∧ V1Advances s t :=
  ⟨_, rfl, v1Advances_of_stages _ _ hst rfl rfl rfl rfl rfl⟩

theorem exec_head1_advances {s : State} (h : RunInv s) (hst : s.stage = .v1Head) :
    ∃ t, exec .head1 s = .next t ∧ V1Advances s t := by
  obtain ⟨-, hi, -⟩ : s.ver = 1 ∧ s.iNat ≤ 4999 ∧ s.j = 0 := h.seq_at hst
  exact ⟨_, rfl, v1Advances_of_stages (34 * (5000 - s.iNat)) (34 * (4999 - s.iNat) + (33 - 0))
    hst rfl rfl rfl rfl (by omega)⟩

theorem exec_br1_advances {s : State} (h : RunInv s) (hst : s.stage = .v1Br) :
    ∃ t, exec .br1 s = .next t ∧ V1Advances s t := by
  obtain ⟨-, hi, hj⟩ : s.ver = 1 ∧ s.iNat ≤ 4999 ∧ s.jNat ≤ 31 := h.seq_at hst
  obtain ⟨t, ht, -, -, hti, hnext, hlast⟩ := v1Step_spec (v1Table.get (v1Nibble s.result s.jNat).toFin) s hj
  have hti' : t.iNat = s.iNat := congrArg BitVec.toNat hti
  refine ⟨t, ht, ?_⟩
  rcases Nat.lt_or_eq_of_le hj with hlt | heq
  · obtain ⟨hstage, htj⟩ := hnext hlt
    exact v1Advances_of_stages (34 * (4999 - s.iNat) + (33 - s.jNat)) (34 * (4999 - t.iNat) + (33 - t.jNat))
      hst hstage rfl rfl rfl (by omega)
  · obtain ⟨hstage, -⟩ := hlast heq
    exact v1Advances_of_stages (34 * (4999 - s.iNat) + (33 - s.jNat)) (34 * (4999 - t.iNat) + 1)
      hst hstage rfl rfl rfl (by omega)

theorem exec_tail1_advances {s : State} (h : RunInv s) (hst : s.stage = .v1Tail) :
    ∃ t, exec .tail1 s = .next t ∧ V1Advances s t := by
  obtain ⟨-, hi, -⟩ : s.ver = 1 ∧ s.iNat ≤ 4999 ∧ s.j = 0 := h.seq_at hst
  obtain ⟨st, i, hexec, hnext, hlast⟩ := exec_tail1_goto hi
  refine ⟨_, hexec, ?_⟩
  rcases Nat.lt_or_eq_of_le hi with hlt | heq
  · obtain ⟨rfl, hti⟩ := hnext hlt
    exact v1Advances_of_stages (34 * (4999 - s.iNat) + 1) (34 * (5000 - i.toNat)) hst rfl rfl rfl rfl (by omega)
  · obtain ⟨rfl, -⟩ := hlast heq
    exact v1Advances_of_stages (34 * (4999 - s.iNat) + 1) 0 hst rfl rfl rfl rfl (by omega)

/-- The operation of every busy stage of a v1 run. -/
theorem RunInv.v1_advances {s : State} (h : RunInv s) (hb : s.busy = true) (hv1 : s.stage.runsV1 = true) :
    ∃ c, decodeSeq (stageCode s.stage) = .ok c ∧ ∃ t, exec c s = .next t ∧ V1Advances s t := by
  cases hst : s.stage with
  | v1Absorb => exact ⟨.absorb, rfl, exec_absorb_advances hst⟩
  | v1Fill => exact ⟨.kfill, rfl, exec_kfill_advances h hst⟩
  | v1Slotld => exact ⟨.slotld, rfl, exec_slotld_advances hst⟩
  | v1Perm => exact ⟨.perm, rfl, exec_perm_advances h hst⟩
  | v1Slotwb => exact ⟨.slotwb, rfl, exec_slotwb_advances hst⟩
  | v1Prime => exact ⟨.prime, rfl, exec_prime_advances hst⟩
  | v1Head => exact ⟨.head1, rfl, exec_head1_advances h hst⟩
  | v1Br => exact ⟨.br1, rfl, exec_br1_advances h hst⟩
  | v1Tail => exact ⟨.tail1, rfl, exec_tail1_advances h hst⟩
  | done => simp [State.busy, hst] at hb
  | _ => rw [hst] at hv1; cases hv1

/-- In a v1 run only `S_DONE` is a state of rest (10_state.md R26). -/
theorem State.stage_done_of_runsV1 {s : State} (hrest : s.busy = false) (hv1 : s.stage.runsV1 = true) : s.stage = .done := by
  cases hst : s.stage with
  | done => rfl
  | idle | fault => rw [hst] at hv1; cases hv1
  | _ => simp [State.busy, hst] at hrest

/-- A v1 run completes in the steps left (70_reset_and_hazards.md R361, 60_exceptions.md R329). -/
theorem RunInv.v1_completes {s : State} (h : RunInv s) (hin : s.inputs = []) (hv1 : s.stage.runsV1 = true) :
    RunsTo s.stepsLeft Completed s := by
  cases hb : s.busy with
  | false =>
    have hdone := State.stage_done_of_runsV1 hb hv1
    have hnone : s.err = .none := Decidable.not_not.1 fun he => by simpa [hdone] using h.errFault.1 he
    exact runsTo_of_rest _ hb hin ⟨hdone, hnone⟩
  | true =>
    obtain ⟨c, hc, t, he, hadv⟩ := h.v1_advances hb hv1
    obtain ⟨hstep, hframe, hinv⟩ := h.step_of_exec hin hc he
    rw [hadv.counts]
    exact .of_step hstep (hinv.v1_completes (hframe.inputs.trans hin) hadv.runs)
termination_by s.stepsLeft
decreasing_by exact Nat.lt_of_lt_of_eq (Nat.lt_succ_self _) hadv.counts.symm

/-! ### Runs that have ended -/

/-- The run has ended (70_reset_and_hazards.md R363). -/
def Ended (u : State) : Prop := u.stage = .done ∨ u.stage = .fault

theorem Ended.rest {u : State} (h : Ended u) : u.busy = false := by
  rcases h with hst | hst
  all_goals rw [State.busy, hst]

/-- A run that has ended within `m` steps is where it was after any greater number of them. -/
theorem RunInv.runsTo_mono {P : State → Prop} (hP : ∀ u, P u → Ended u) {m n : Nat} (hmn : m ≤ n) {s : State}
    (h : RunInv s) (hin : s.inputs = []) (hrun : RunsTo m P s) : RunsTo n P s := by
  induction m generalizing s n with
  | zero =>
    obtain ⟨u, hu, hPu⟩ := hrun
    cases hu
    exact runsTo_of_rest n (hP s hPu).rest hin hPu
  | succ m ih =>
    obtain ⟨k, rfl⟩ : ∃ k, n = k + 1 := ⟨n - 1, by omega⟩
    obtain ⟨t, ht, hframe, hinv⟩ := h.step_alone hin
    obtain ⟨u, hu, hPu⟩ := hrun
    rw [run_succ_of_next ht] at hu
    exact .of_step ht (ih (by omega) hinv (hframe.inputs.trans hin) ⟨u, hu, hPu⟩)

/-- The answer of a run that has ended (47_finalize_host.md R294): the digest, or the code of the fault. -/
def endResult (u : State) : HashResult := if u.stage = .done then .digest u.digest else .error (errNumber u.err)

theorem endResult_of_done {u : State} (h : u.stage = .done) : endResult u = .digest u.digest := if_pos h

theorem endResult_of_fault {u : State} (h : u.stage = .fault) : endResult u = .error (errNumber u.err) :=
  if_neg (by rw [h]; decide)

theorem Faulted.endResult_eq {e : ErrCode} {u : State} (h : Faulted e u) : endResult u = .error (errNumber e) := by
  rw [endResult_of_fault h.1, h.2]

/-- What is live where a run has ended is its answer (70_reset_and_hazards.md R356). -/
theorem Live.endResult_eq {v u : State} (h : Live v u) : endResult v = endResult u := by
  have hpos := h.samePos
  by_cases hdone : v.stage = .done
  · obtain ⟨-, hdigest, -⟩ := (live_done hdone).1 h
    rw [endResult_of_done hdone, endResult_of_done (hpos.stage ▸ hdone), hdigest]
  · rw [endResult, endResult, if_neg hdone, if_neg (hpos.stage ▸ hdone), hpos.err]

/-! ### Polling -/

/-- The state after an `RDSTATUS` (47_finalize_host.md R299). -/
abbrev State.polled (s : State) : State := s.hostRead (s.statusWord.setWidth 64)

theorem State.readRun_polled (s : State) : s.polled.readRun = s.runCode := by
  have hrun := s.runCode.isLt
  apply BitVec.eq_of_toNat_eq
  rw [State.readRun, State.hostRead_hostData, BitVec.extractLsb'_toNat, BitVec.toNat_setWidth_of_le (by omega),
    s.toNat_statusWord, Nat.shiftRight_zero]
  omega

theorem State.readErr_polled (s : State) : s.polled.readErr = errNumber s.err := by
  have hrun := s.runCode.isLt
  have herr := (errNumber s.err).isLt
  apply BitVec.eq_of_toNat_eq
  rw [State.readErr, State.hostRead_hostData, BitVec.extractLsb'_toNat, BitVec.toNat_setWidth_of_le (by omega),
    s.toNat_statusWord, Nat.shiftRight_eq_div_pow]
  omega

/-- `RUN` reads `BUSY` while the sequencer runs (10_state.md R26). -/
theorem State.readRun_polled_eq_one_iff (s : State) : s.polled.readRun = 1 ↔ s.busy = true := by
  rw [s.readRun_polled, State.runCode, State.busy]
  cases s.stage <;> simp

/-- Two runs in step stay so if the host reads from one of them. -/
theorem Live.hostRead {s t : State} (h : Live s t) (v : Word) : Live (s.hostRead v) t := h

/-- A run that the host polls (log 23) goes as far as one in step with it that is left alone: a poll writes nothing but the
model's record of what was read. -/
theorem Live.pollStatus {s t u : State} (n : Nat) (h : Live s t) (hs : RunInv s) (ht : RunInv t) (hsin : s.inputs = [])
    (htin : t.inputs = []) (hrun : Host.Core.run Sys2Proof.core n t = .next u) :
    ∃ v, pollStatus n s = .next v.polled ∧ Live v u := by
  induction n generalizing s t with
  | zero =>
    cases hrun
    exact ⟨s, rfl, h⟩
  | succ n ih =>
    cases hb : t.busy with
    | false =>
      have hsb : ¬ s.busy = true := by simp [← h.samePos.busy, hb]
      obtain ⟨w, hw, rfl⟩ : RunsTo (n + 1) (· = t) t := runsTo_of_rest _ hb htin rfl
      cases hw.symm.trans hrun
      exact ⟨s, pollStatus_of_not_busy _ s (mt s.readRun_polled_eq_one_iff.1 hsb), h⟩
    | true =>
      have hsb : s.busy = true := h.samePos.busy ▸ hb
      obtain ⟨s', hs', hsf, hsinv⟩ := (hs.hostRead (s.statusWord.setWidth 64)).step_alone hsin
      obtain ⟨t', ht', htf, htinv⟩ := ht.step_alone htin
      have hlive := (h.hostRead _).step_alone (hs.hostRead (s.statusWord.setWidth 64)) ht hsin htin s' t' hs' ht'
      rw [run_succ_of_next ht'] at hrun
      obtain ⟨v, hv, hvu⟩ := ih hlive hsinv htinv (hsf.inputs.trans hsin) (htf.inputs.trans htin) hrun
      exact ⟨v, by rw [pollStatus_of_busy n s (s.readRun_polled_eq_one_iff.2 hsb), hs', andThen_next, hv], hvu⟩

/-! ### The result of a call -/

/-- The bytes of `DIGEST` that the host asks for, in `S_DONE` (47_finalize_host.md R300). -/
theorem readDigest_of_done (ks : List (BitVec 5)) {s : State} (hdone : s.stage = .done) :
    readDigest ks s = .next (ks.map fun k => s.digest.get k.toFin) := by
  induction ks generalizing s with
  | nil => rfl
  | cons k ks ih =>
    have hrest := ih (s := s.hostRead ((s.digest.get k.toFin).setWidth 64)) hdone
    rw [readDigest, exec_rddigest_byte_of_done hdone, andThen_next, hrest, andThen_next, State.hostRead_hostData,
      BitVec.setWidth_setWidth_of_le _ (by omega), BitVec.setWidth_eq, State.hostRead_digest, List.map_cons]

/-- All 32 bytes make the register again. -/
theorem bytesToVector_digest (d : Vector Byte 32) :
    bytesToVector 32 (((List.range 32).map (BitVec.ofNat 5)).map fun k => d.get k.toFin) = d := by
  refine Vector.ext fun k hk => ?_
  simp [bytesToVector, List.getD_eq_getElem?_getD, Vector.get_eq_getElem]

/-- What the host returns after the poll that finds the run at its end. -/
theorem hashResult_polled {v : State} (hended : Ended v) : hashResult v.polled = .next (endResult v) := by
  have hrun := v.readRun_polled
  rcases hended with hst | hst
  · rw [State.runCode, hst] at hrun
    rw [hashResult, if_pos hrun, readDigest_of_done _ (s := v.polled) hst, andThen_next, State.hostRead_digest,
      bytesToVector_digest, endResult_of_done hst]
  · rw [State.runCode, hst] at hrun
    rw [hashResult, if_neg (by rw [hrun]; decide), if_pos hrun, v.readErr_polled, endResult_of_fault hst]

/-! ### The commands before the polling -/

/-- The engine at rest with the call's mode, length and input written, all but `START` done (47_finalize_host.md R294). The
bytes at and beyond `IN_CAP` have no place (R302). -/
structure Loaded (p : EngineParams) (ver : BitVec 2) (padded : Bool) (input : List Byte) (u : State) : Prop where
  inv : RunInv u
  rest : u.busy = false
  inputs : u.inputs = []
  params : u.params = p
  ver : u.ver = ver
  padded : u.padded = padded
  len : u.len.toNat = input.length
  bytes : ∀ k, k < input.length → k < p.inCap → u.input.read k = input.getD k 0

/-- The `WRIN` of each byte of the input, from `IN[0]` on. -/
abbrev wrinBytes (input : List Byte) : List Instr := input.mapIdx fun k b => .wrin (.byte (BitVec.ofNat 32 k) b)

/-- The mode and the length are written (47_finalize_host.md R298, R301). -/
theorem issue_wrmode_wrlen {s : State} (hrest : s.busy = false) (ver : BitVec 2) (padded : Bool) (n : Half) :
    issue [.wrmode ver padded, .wrlen n] s = .next { s with ver := ver, padded := padded, len := n } := by
  obtain ⟨hmode, -⟩ := writeModeLen.1 s ver padded n hrest
  obtain ⟨-, hlen⟩ := writeModeLen.1 { s with ver := ver, padded := padded } ver padded n hrest
  rw [issue_cons, hmode, andThen_next, issue_cons, hlen, andThen_next, issue_nil]

/-- The bytes are written one by one (47_finalize_host.md R302). -/
theorem issue_wrinBytes {s : State} (h : RunInv s) (hrest : s.busy = false) (input : List Byte)
    (hlen : input.length < 2 ^ 32) :
    ∃ u, issue (wrinBytes input) s = .next u ∧ RunInv u ∧ u = { s with input := u.input } ∧
      ∀ k, k < input.length → k < s.params.inCap → u.input.read k = input.getD k 0 := by
  induction input using List.reverseRecOn with
  | nil => exact ⟨s, rfl, h, rfl, fun k hk => absurd hk (Nat.not_lt_zero k)⟩
  | append_singleton l b ih =>
    rw [List.length_append, List.length_singleton] at hlen
    obtain ⟨u, hissue, hinv, hframe, hread⟩ := ih (by omega)
    have hrest' : u.busy = false := by rw [hframe]; exact hrest
    have hparams : u.params = s.params := by rw [hframe]
    have hindex : (BitVec.ofNat 32 l.length).toNat = l.length := by rw [BitVec.toNat_ofNat]; omega
    refine ⟨u.setInBytes l.length [b], ?_, hinv.setInBytes hrest' _ _, ?_, fun k hk hcap => ?_⟩
    · rw [wrinBytes, List.mapIdx_concat, issue_append, hissue, andThen_next, issue_cons, exec_wrin_byte_of_rest hrest', hindex,
        andThen_next, issue_nil]
    · rw [State.setInBytes, hframe]
    · rw [List.length_append, List.length_singleton] at hk
      rw [State.read_setInBytes, List.length_singleton, hparams]
      rcases Nat.lt_or_eq_of_le (Nat.le_of_lt_succ hk) with hlt | rfl
      · rw [if_neg (by omega), hread k hlt hcap, List.getD_append _ _ _ _ hlt]
      · rw [if_pos ⟨Nat.le_refl _, Nat.lt_succ_self _, hcap⟩, Nat.sub_self, List.getD_append_right _ _ _ _ (Nat.le_refl _),
          Nat.sub_self]

/-- The commands of a call lead to `START` on the loaded engine. -/
theorem issue_hashCommands {s : State} (h : RunInv s) (hrest : s.busy = false) (ver : BitVec 2) (padded : Bool)
    (input : List Byte) (hlen : input.length < 2 ^ 32) :
    ∃ u, issue (hashCommands ver padded input) { s with inputs := [] } = .next u.startRun ∧
      Loaded s.params ver padded input u := by
  have hinv : RunInv { s with inputs := [], ver := ver, padded := padded, len := BitVec.ofNat 32 input.length } :=
    h.of_host_write hrest rfl rfl rfl rfl rfl h.pad_within h.input_within
  obtain ⟨u, hissue, hloaded, hframe, hread⟩ := issue_wrinBytes hinv hrest input hlen
  have hrest' : u.busy = false := by rw [hframe]; exact hrest
  have hlen' : u.len.toNat = input.length := by
    rw [hframe, BitVec.toNat_ofNat]
    omega
  refine ⟨u, ?_, hloaded, hrest', by rw [hframe], by rw [hframe], by rw [hframe], by rw [hframe], hlen', hread⟩
  rw [hashCommands, issue_append, issue_append, issue_wrmode_wrlen (s := { s with inputs := [] }) hrest, andThen_next, hissue,
    andThen_next, issue_cons, exec_start_of_rest hrest', andThen_next, issue_nil]

section
variable {p : EngineParams} {ver : BitVec 2} {padded : Bool} {input : List Byte} {a b : State}

/-- Two engines loaded with one input have the same input: both have nothing at and beyond `IN_CAP`. -/
theorem Loaded.inputAgree (ha : Loaded p ver padded input a) (hb : Loaded p ver padded input b) : InputAgree a b := by
  refine ⟨BitVec.eq_of_toNat_eq (ha.len.trans hb.len.symm), fun k hk => ?_⟩
  by_cases hcap : k < p.inCap
  · rw [ha.bytes k (ha.len ▸ hk) hcap, hb.bytes k (ha.len ▸ hk) hcap]
  · rw [Memory.read_eq_zero fun c hc => by have := ha.params ▸ ha.inv.inputRange c hc; omega,
      Memory.read_eq_zero fun c hc => by have := hb.params ▸ hb.inv.inputRange c hc; omega]

/-- `START` on two loaded engines: the same fault, or two runs in step. -/
theorem Loaded.live (ha : Loaded p ver padded input a) (hb : Loaded p ver padded input b) : Live a.startRun b.startRun :=
  live_startRun (ha.params.trans hb.params.symm) (ha.ver.trans hb.ver.symm) (fun _ => ha.padded.trans hb.padded.symm)
    (ha.inputAgree hb)

theorem Loaded.startRun_inputs (ha : Loaded p ver padded input a) : a.startRun.inputs = [] :=
  a.startRun_inputs.trans ha.inputs

end

/-! ### How the run of a call ends -/

/-- The lengths that `START` refuses (47_finalize_host.md R297). -/
abbrev BadLength (p : EngineParams) (ver : BitVec 2) (padded : Bool) (len : Nat) : Prop :=
  p.inCap < len ∨ (ver = 1 ∧ padded = false ∧ len ≠ 200) ∨ (ver = 1 ∧ padded = true ∧ 120 < len)

/-- `START`'s checks as one test of the version and one of the length. -/
theorem State.startFault_eq (s : State) : s.startFault =
    if s.ver = 0 then .illegalVer
    else if BadLength s.params s.ver s.padded s.len.toNat then .invalidInputLength
    else .none := by
  have hlen : s.len = 200 ↔ s.len.toNat = 200 := ⟨fun h => by rw [h]; rfl, fun h => BitVec.eq_of_toNat_eq h⟩
  simp only [State.startFault, BadLength, ne_eq, hlen]
  split
  · rfl
  by_cases hcap : s.params.inCap < s.len.toNat
  · rw [if_pos hcap, if_pos (.inl hcap)]
  by_cases hplain : s.ver = 1 ∧ s.padded = false ∧ ¬ s.len.toNat = 200
  · rw [if_neg hcap, if_pos hplain, if_pos (.inr (.inl hplain))]
  by_cases hpadded : s.ver = 1 ∧ s.padded = true ∧ 120 < s.len.toNat
  · rw [if_neg hcap, if_neg hplain, if_pos hpadded, if_pos (.inr (.inr hpadded))]
  · rw [if_neg hcap, if_neg hplain, if_neg hpadded, if_neg (not_or.2 ⟨hcap, not_or.2 ⟨hplain, hpadded⟩⟩)]

/-- A run takes no more steps than the host is ready to poll (70_reset_and_hazards.md R361, log 23). -/
theorem State.startRun_stepsLeft_le (s : State) : s.startRun.stepsLeft ≤ stepBound s.len.toNat := by
  by_cases hf : s.startFault = .none
  · rw [State.startRun_of_accepted hf]
    by_cases h1 : s.ver = 1
    · rw [if_pos h1]
      exact Nat.le_add_right 171571 _
    · have hsteps : ({ s with err := .none }.goto .cfZero 0 0).stepsLeft =
          2 + (chunkCount s.len).toNat + if s.ver = 2 then 82376 else 67974 := rfl
      rw [if_neg h1, hsteps, toNat_chunkCount, stepBound]
      split <;> omega
  · rw [State.startRun_of_fault hf]
    exact Nat.zero_le _

/-- The answer of a call by its arguments (47_finalize_host.md R297, 44_chacha_fill.md R204 to R206). -/
def HashAnswer (p : EngineParams) (ver : BitVec 2) (padded : Bool) (len : Nat) (x : HashResult) : Prop :=
  if ver = 0 then x = .error 4
  else if BadLength p ver padded len then x = .error 1
  else if ver = 1 ∨ (len + 31) / 32 = 0 ∨
      ((len + 31) / 32 ∣ memBytes ver ∧ 12 ≤ memBytes ver / ((len + 31) / 32)) then ∃ d, x = .digest d
  else if memBytes ver / ((len + 31) / 32) < 12 then x = .error 6
  else x = .error 5

/-- The run of a call has ended with the answer that the call's arguments ask for. -/
def HashEnds (p : EngineParams) (ver : BitVec 2) (padded : Bool) (len : Nat) (u : State) : Prop :=
  Ended u ∧ HashAnswer p ver padded len (endResult u)

section
variable {p : EngineParams} {ver : BitVec 2} {padded : Bool} {len : Nat} {u : State}

theorem hashEnds_of_illegalVer (hver : ver = 0) (hu : Faulted .illegalVer u) : HashEnds p ver padded len u :=
  ⟨.inr hu.1, by rw [HashAnswer, if_pos hver, hu.endResult_eq]; rfl⟩

theorem hashEnds_of_badLength (hver : ver ≠ 0) (hbad : BadLength p ver padded len) (hu : Faulted .invalidInputLength u) :
    HashEnds p ver padded len u :=
  ⟨.inr hu.1, by rw [HashAnswer, if_neg hver, if_pos hbad, hu.endResult_eq]; rfl⟩

theorem hashEnds_of_v1 (hver : ver = 1) (hlen : ¬ BadLength p ver padded len) (hu : Completed u) :
    HashEnds p ver padded len u := by
  have hne : ver ≠ 0 := by rw [hver]; decide
  refine ⟨.inl hu.1, ?_⟩
  rw [HashAnswer, if_neg hne, if_neg hlen, if_pos (.inl hver)]
  exact ⟨u.digest, endResult_of_done hu.1⟩

/-- The end of a fill is the end of its call (44_chacha_fill.md R204 to R206). -/
theorem hashEnds_of_fillEnd (h0 : ver ≠ 0) (h1 : ver ≠ 1) (hlen : ¬ BadLength p ver padded len)
    (hu : FillEnd (memBytes ver) ((len + 31) / 32) u) : HashEnds p ver padded len u := by
  rw [HashEnds, HashAnswer, if_neg h0, if_neg hlen]
  rw [FillEnd] at hu
  split at hu
  · next hfits =>
    rw [if_pos (.inr hfits)]
    exact ⟨.inl hu.1, u.digest, endResult_of_done hu.1⟩
  next hfits =>
  rw [if_neg (not_or.2 ⟨h1, hfits⟩)]
  split at hu
  · next hshort =>
    rw [if_pos hshort]
    exact ⟨.inr hu.1, hu.endResult_eq⟩
  · next hlong =>
    rw [if_neg hlong]
    exact ⟨.inr hu.1, hu.endResult_eq⟩

end

theorem RunsTo.imp {n : Nat} {P Q : State → Prop} {s : State} (h : RunsTo n P s) (hPQ : ∀ u, P u → Q u) : RunsTo n Q s := by
  obtain ⟨u, hrun, hu⟩ := h
  exact ⟨u, hrun, hPQ u hu⟩

section
variable {p : EngineParams} {ver : BitVec 2} {padded : Bool} {input : List Byte} {a b u : State}

/-- The run that `START` begins on a loaded engine ends, within the steps that the host polls, with the answer of the call. -/
theorem Loaded.ends (ha : Loaded p ver padded input a) :
    RunsTo (stepBound input.length) (HashEnds p ver padded input.length) a.startRun := by
  have hinv := ha.inv.startRun
  have hin := ha.startRun_inputs
  have hfault := a.startFault_eq
  rw [ha.ver, ha.params, ha.padded, ha.len] at hfault
  refine hinv.runsTo_mono (fun _ hu => hu.1) (ha.len ▸ a.startRun_stepsLeft_le) hin ?_
  by_cases h0 : ver = 0
  · rw [if_pos h0] at hfault
    rw [State.startRun_of_startFault hfault (by decide)]
    exact runsTo_of_rest _ rfl ha.inputs (hashEnds_of_illegalVer h0 ⟨rfl, rfl⟩)
  rw [if_neg h0] at hfault
  by_cases hbad : BadLength p ver padded input.length
  · rw [if_pos hbad] at hfault
    rw [State.startRun_of_startFault hfault (by decide)]
    exact runsTo_of_rest _ rfl ha.inputs (hashEnds_of_badLength h0 hbad ⟨rfl, rfl⟩)
  rw [if_neg hbad] at hfault
  rw [State.startRun_of_accepted hfault] at hinv hin ⊢
  by_cases h1 : ver = 1
  · rw [if_pos (ha.ver.trans h1)] at hinv hin ⊢
    exact (hinv.v1_completes hin rfl).imp fun _ hu => hashEnds_of_v1 h1 hbad hu
  · rw [if_neg (ha.ver ▸ h1)] at hinv hin ⊢
    refine (hinv.zero_ends hin rfl).imp fun _ hu => hashEnds_of_fillEnd h0 h1 hbad ?_
    rw [← ha.ver, ← ha.len]
    exact hu

/-! ### The call -/

/-- The call on an engine that its commands load answers what any run on the same input ends with. -/
theorem hash_of_loaded {s : State} (hissue : issue (hashCommands ver padded input) { s with inputs := [] } = .next a.startRun)
    (ha : Loaded p ver padded input a) (hb : Loaded p ver padded input b)
    (hrun : Host.Core.run Sys2Proof.core (stepBound input.length) b.startRun = .next u) (hu : Ended u) :
    hash ver padded input s = .next (endResult u) := by
  obtain ⟨v, hpoll, hlive⟩ := (ha.live hb).pollStatus _ ha.inv.startRun hb.inv.startRun ha.startRun_inputs
    hb.startRun_inputs hrun
  have hv : Ended v := by rwa [Ended, hlive.samePos.stage]
  rw [hash, hissue, andThen_next, hpoll, andThen_next, hashResult_polled hv, hlive.endResult_eq]

/-- The run of the last clause, which ends in the steps that it has left, has also ended after as many steps as the host
polls. -/
theorem Loaded.run_stepBound (ha : Loaded p ver padded input a)
    (hrun : Host.Core.run Sys2Proof.core a.startRun.stepsLeft a.startRun = .next u) (hu : Ended u) :
    Host.Core.run Sys2Proof.core (stepBound input.length) a.startRun = .next u := by
  obtain ⟨v, hv, rfl⟩ := ha.inv.startRun.runsTo_mono (P := (· = u)) (fun _ he => he ▸ hu)
    (ha.len ▸ a.startRun_stepsLeft_le) ha.startRun_inputs ⟨u, hrun, rfl⟩
  exact hv

end

/-- Settles O16: the commands load both engines, the run on a loaded engine ends as the arguments say (`Loaded.ends`), and two
runs on one input end alike (`hash_of_loaded`). -/
theorem hashFunction : Obligations.HashFunction := by
  intro s t ver padded input hs ht hsrest htrest hpar hlen len n
  obtain ⟨a, hissue, ha⟩ := issue_hashCommands hs hsrest ver padded input hlen
  obtain ⟨b, hissue', hb⟩ := issue_hashCommands ht htrest ver padded input hlen
  rw [← hpar] at hb
  obtain ⟨u, hrun, hended, hanswer⟩ := ha.ends
  refine ⟨endResult u, hash_of_loaded hissue ha ha hrun hended, hash_of_loaded hissue' hb ha hrun hended, hanswer, ?_⟩
  intro t' u' hin hver hpadded htlen hbytes hstart hrun' hdone
  have hc : Loaded s.params ver padded input t :=
    ⟨ht, htrest, hin, hpar.symm, hver, hpadded, htlen, fun k hk _ => hbytes k hk⟩
  cases (exec_start_of_rest htrest).symm.trans hstart
  have hcall := hash_of_loaded hissue ha hc (hc.run_stepBound hrun' (.inl hdone)) (.inl hdone)
  have hsame := Host.Outcome.next.inj ((hash_of_loaded hissue ha ha hrun hended).symm.trans hcall)
  rw [hsame, endResult_of_done hdone]

end Sys2Proof.Machine

/-! The statements on the exceptions and the reset (60_exceptions.md, 70_reset_and_hazards.md): what the reset leaves in any
state, how many steps an accepted `START` begins with, that each step of a run takes one off them, and that every run ends. -/

namespace Sys2Proof.Machine

/-! ### The reset in any state -/

/-- The reset selects no operation (70_reset_and_hazards.md R350). -/
theorem step_of_reset {s : State} {rest : List Input} (hin : s.inputs = .reset :: rest) :
    step s = .next s.takeInput.applyReset := by
  simp only [step, State.fetch, State.nextSelector, State.noOperation, hin]

/-- Settles O5: the step is `State.applyReset` with the reset taken off the list. -/
theorem resetInput : Obligations.ResetInput := by
  intro s rest hin
  have hstatus : s.takeInput.applyReset.statusWord = 0 := BitVec.eq_of_toNat_eq (State.toNat_statusWord _)
  refine ⟨_, step_of_reset hin, rfl, rfl, rfl, rfl, hstatus, rfl, ?_⟩
  simp only [State.applyReset, State.takeInput, hin, List.tail_cons]

/-! ### The length of an accepted run -/

/-- A `START` at rest that does not end in `S_FAULT` has passed every check (47_finalize_host.md R297). -/
theorem State.startFault_none_of_stage {s : State} (h : s.startRun.stage ≠ .fault) : s.startFault = .none :=
  Decidable.not_not.1 fun he => h (by rw [State.startRun_of_fault he, State.raise_stage])

/-- An accepted v1 run begins with 171571 steps (70_reset_and_hazards.md R361). -/
theorem State.startRun_stepsLeft_v1 {s : State} (hf : s.startFault = .none) (hver : s.ver = 1) :
    s.startRun.stepsLeft = 171571 := by
  rw [State.startRun_of_accepted hf, if_pos hver]
  exact State.stepsLeft_at (st := .v1Absorb) rfl

/-- An accepted v2 or v3 run zeroes and seeds, takes a step for each chunk, and mixes (70_reset_and_hazards.md R361). -/
theorem State.startRun_stepsLeft_mix {s : State} (hf : s.startFault = .none) (hver : s.ver ≠ 1) :
    s.startRun.stepsLeft = 2 + (s.len.toNat + 31) / 32 + s.mixSteps := by
  rw [State.startRun_of_accepted hf, if_neg hver, ← toNat_chunkCount]
  exact State.stepsLeft_at (st := .cfZero) rfl

/-- Settles O10: a run that `START` accepts is at the first stage of its version. -/
theorem startStepCount : Obligations.StartStepCount := by
  intro s t hrest hstart hfault
  cases (exec_start_of_rest hrest).symm.trans hstart
  have hf := State.startFault_none_of_stage hfault
  by_cases h1 : s.ver = 1
  · rw [if_pos h1, State.startRun_stepsLeft_v1 hf h1]
  · rw [if_neg h1, State.startRun_stepsLeft_mix hf h1, State.mixSteps, mixSteps2, mixSteps3]
    split <;> omega

/-! ### One step off the count -/

/-- A step of a run: one off the count, at a stage of the run or its end, or a fault before the count is used up
(70_reset_and_hazards.md R361, 60_exceptions.md R330). -/
inductive RunAdvances (s t : State) : Prop where
  | counts (stage : t.stage ≠ .idle) (left : s.stepsLeft = t.stepsLeft + 1)
  | faults (stage : t.stage = .fault) (left : 0 < s.stepsLeft)

theorem V1Advances.runAdvances {s t : State} (h : V1Advances s t) : RunAdvances s t :=
  .counts (fun hst => by have hruns := h.runs; rw [hst] at hruns; cases hruns) h.counts

theorem MixAdvances.runAdvances {s t : State} (h : MixAdvances s t) : RunAdvances s t :=
  .counts (fun hst => by have hmix := h.mixes; rw [hst] at hmix; cases hmix) h.counts

/-- The mix of a run takes the steps of its version (70_reset_and_hazards.md R361). -/
theorem State.mixSteps_congr {s t : State} (h : t.ver = s.ver) : t.mixSteps = s.mixSteps := by
  rw [State.mixSteps, State.mixSteps, h]

theorem exec_cfzero_advances {s : State} (h : RunInv s) (hst : s.stage = .cfZero) :
    ∃ t, exec .cfzero s = .next t ∧ RunAdvances s t := by
  obtain ⟨hver, -, -⟩ : (s.ver = 2 ∨ s.ver = 3) ∧ s.i = 0 ∧ s.j = 0 := h.seq_at hst
  have hs : s.stepsLeft = 2 + (chunkCount s.len).toNat + s.mixSteps := State.stepsLeft_at hst
  refine ⟨_, exec_cfzero_next hver, .counts (by simp) ?_⟩
  show _ = 1 + (chunkCount s.len).toNat + s.mixSteps + 1
  omega

/-- `CFSEED` counts the chunks that the fill then takes (44_chacha_fill.md R201). -/
theorem exec_cfseed_advances {s : State} (hst : s.stage = .cfSeed) :
    ∃ t, exec .cfseed s = .next t ∧ RunAdvances s t := by
  have hs : s.stepsLeft = 1 + (chunkCount s.len).toNat + s.mixSteps := State.stepsLeft_at hst
  have hcount := toNat_chunkCount s.len
  obtain ⟨t, he, -, -, -, hnum, hstage, hi, -, hframe⟩ := cfseed s
  have hmix : t.mixSteps = s.mixSteps := State.mixSteps_congr (by rw [hframe])
  refine ⟨t, he, .counts (by rw [hstage]; split <;> simp) ?_⟩
  split at hstage
  · have ht : t.stepsLeft = t.mixSteps := State.stepsLeft_at hstage
    omega
  · have ht : t.stepsLeft = t.numChunks.toNat - t.iNat + t.mixSteps := State.stepsLeft_at hstage
    have hi' : t.iNat = 0 := congrArg BitVec.toNat hi
    omega

/-- Moving on after a chunk takes one off the count (44_chacha_fill.md R202). -/
theorem State.chunkNext_advances {s u : State} (hst : s.stage = .cfChunk) (hk : s.iNat < s.numChunks.toNat)
    (hpos : u.i = s.i) (hnum : u.numChunks = s.numChunks) (hver : u.ver = s.ver) : RunAdvances s u.chunkNext := by
  have hs : s.stepsLeft = s.numChunks.toNat - s.iNat + s.mixSteps := State.stepsLeft_at hst
  have hi : u.iNat = s.iNat := congrArg BitVec.toNat hpos
  obtain ⟨st, i, hnext, hmore, hlast⟩ := State.chunkNext_goto (s := u) (by rwa [hi, hnum])
  have hmix : (u.goto st i 0).mixSteps = s.mixSteps := State.mixSteps_congr hver
  rw [hi, hnum] at hmore hlast
  rw [hnext]
  rcases Nat.lt_or_eq_of_le (Nat.succ_le_of_lt hk) with hlt | heq
  · obtain ⟨rfl, hi'⟩ := hmore hlt
    have ht : (u.goto .cfChunk i 0).stepsLeft = u.numChunks.toNat - i.toNat + (u.goto .cfChunk i 0).mixSteps := rfl
    rw [hnum] at ht
    exact .counts (by simp) (by omega)
  · obtain ⟨rfl, -⟩ := hlast heq
    have ht : (u.goto .mxSetup i 0).stepsLeft = (u.goto .mxSetup i 0).mixSteps := rfl
    exact .counts (by simp) (by omega)

/-- `CFCHUNK` raises one of its two faults or moves on (44_chacha_fill.md R202, R204, R205). -/
theorem exec_cfchunk_advances {s : State} (h : RunInv s) (hst : s.stage = .cfChunk) :
    ∃ t, exec .cfchunk s = .next t ∧ RunAdvances s t := by
  obtain ⟨hver, hk, -⟩ : (s.ver = 2 ∨ s.ver = 3) ∧ s.iNat < s.numChunks.toNat ∧ s.j = 0 := h.seq_at hst
  have hs : s.stepsLeft = s.numChunks.toNat - s.iNat + s.mixSteps := State.stepsLeft_at hst
  have hpos : 0 < s.stepsLeft := by omega
  obtain ⟨x, hx⟩ : ∃ x, s.chunkHashed = { s with h := x } := ⟨_, rfl⟩
  refine ⟨_, exec_cfchunk_cases hver hk, ?_⟩
  rw [hx]
  split
  · exact .faults rfl hpos
  split
  · exact .faults rfl hpos
  · exact State.chunkNext_advances hst hk rfl rfl rfl

/-! ### Every step of a run -/

/-- The operation of every busy stage: those of the fill here, the others as parts of a v1 run or of the mix. -/
theorem RunInv.operation_advances {s : State} (h : RunInv s) (hb : s.busy = true) :
    ∃ c, decodeSeq (stageCode s.stage) = .ok c ∧ ∃ t, exec c s = .next t ∧ RunAdvances s t := by
  by_cases hv1 : s.stage.runsV1 = true
  · obtain ⟨c, hc, t, he, hadv⟩ := h.v1_advances hb hv1
    exact ⟨c, hc, t, he, hadv.runAdvances⟩
  by_cases hmix : s.stage.mixes = true
  · obtain ⟨c, hc, t, he, hadv⟩ := h.mix_advances hb hmix
    exact ⟨c, hc, t, he, hadv.runAdvances⟩
  cases hst : s.stage with
  | cfZero => exact ⟨.cfzero, rfl, exec_cfzero_advances h hst⟩
  | cfSeed => exact ⟨.cfseed, rfl, exec_cfseed_advances hst⟩
  | cfChunk => exact ⟨.cfchunk, rfl, exec_cfchunk_advances h hst⟩
  | idle | fault => simp [State.busy, hst] at hb
  | _ => simp [hst, Stage.runsV1, Stage.mixes] at hv1 hmix

/-- A step of a run that the host leaves alone. -/
theorem RunInv.step_advances {s : State} (h : RunInv s) (hb : s.busy = true) (hin : s.inputs = []) :
    ∃ t, step s = .next t ∧ t.inputs = [] ∧ RunInv t ∧ RunAdvances s t := by
  obtain ⟨c, hc, t, he, hadv⟩ := h.operation_advances hb
  obtain ⟨hstep, hframe, hinv⟩ := h.step_of_exec hin hc he
  exact ⟨t, hstep, hframe.inputs.trans hin, hinv, hadv⟩

/-- Settles O9: the step is `RunInv.step_advances`. -/
theorem stepsCountDown : Obligations.StepsCountDown := by
  intro s h hb hin
  obtain ⟨t, hstep, htin, -, hadv⟩ := h.step_advances hb hin
  refine ⟨t, hstep, htin, ?_⟩
  cases hadv with
  | counts _ hcount => exact .inr hcount.symm
  | faults hfault _ => exact .inl hfault

/-! ### Every run ends -/

/-- At rest, but for an engine that has not run yet, the run has ended (10_state.md R26). -/
theorem State.ended_of_rest {s : State} (hrest : s.busy = false) (hidle : s.stage ≠ .idle) : Ended s := by
  cases hst : s.stage with
  | done => exact .inl hst
  | fault => exact .inr hst
  | idle => exact absurd hst hidle
  | _ => simp [State.busy, hst] at hrest

/-- A run ends in the steps left: each step takes one off them, and a fault that cuts the run short stays
(70_reset_and_hazards.md R363, 60_exceptions.md R331). -/
theorem RunInv.run_ends {s : State} (h : RunInv s) (hin : s.inputs = []) (hidle : s.stage ≠ .idle) :
    RunsTo s.stepsLeft Ended s := by
  cases hb : s.busy with
  | false => exact runsTo_of_rest _ hb hin (State.ended_of_rest hb hidle)
  | true =>
    obtain ⟨t, hstep, htin, hinv, hadv⟩ := h.step_advances hb hin
    cases hadv with
    | counts htidle hcount =>
      rw [hcount]
      exact .of_step hstep (hinv.run_ends htin htidle)
    | faults hfault hpos =>
      obtain ⟨n, hn⟩ := Nat.exists_eq_succ_of_ne_zero hpos.ne'
      have hended : Ended t := .inr hfault
      rw [hn]
      exact .of_step hstep (runsTo_of_rest n hended.rest htin hended)
termination_by s.stepsLeft
decreasing_by exact Nat.lt_of_lt_of_eq (Nat.lt_succ_self _) hcount.symm

/-- Settles O11: a busy engine is not in `S_IDLE`, and `RunInv.run_ends` follows its run. -/
theorem runsTerminate : Obligations.RunsTerminate := by
  intro s h hb hin
  exact h.run_ends hin fun hst => by simp [State.busy, hst] at hb

/-! ### A v1 run is busy until its last step -/

/-- Where steps are left the sequencer runs (10_state.md R26). -/
theorem State.busy_of_stepsLeft_pos {s : State} (h : 0 < s.stepsLeft) : s.busy = true := by
  cases hst : s.stage with
  | idle | done | fault => simp [State.stepsLeft, hst] at h
  | _ => rw [State.busy, hst]

/-- A v1 run raises no fault (60_exceptions.md R329), so that it is busy for all the steps left. -/
theorem RunInv.v1_busy (n : Nat) {s : State} (h : RunInv s) (hin : s.inputs = []) (hv1 : s.stage.runsV1 = true)
    (hn : n < s.stepsLeft) : RunsTo n (fun u => u.busy = true) s := by
  have hb := State.busy_of_stepsLeft_pos (Nat.zero_lt_of_lt hn)
  induction n generalizing s with
  | zero => exact ⟨s, rfl, hb⟩
  | succ n ih =>
    obtain ⟨c, hc, t, he, hadv⟩ := h.v1_advances hb hv1
    obtain ⟨hstep, hframe, hinv⟩ := h.step_of_exec hin hc he
    have hlt : n < t.stepsLeft := by have := hadv.counts; omega
    exact .of_step hstep (ih hinv (hframe.inputs.trans hin) hadv.runs hlt (State.busy_of_stepsLeft_pos (Nat.zero_lt_of_lt hlt)))

/-- Settles O12: `RunInv.v1_busy` before the last of the 171571 steps, `RunInv.v1_completes` after it. -/
theorem v1RunCompletes : Obligations.V1RunCompletes := by
  intro s t h hrest hver hin hstart hfault
  cases (exec_start_of_rest hrest).symm.trans hstart
  have hf := State.startFault_none_of_stage hfault
  have hinv := h.startRun
  have htin := s.startRun_inputs.trans hin
  have hsteps := State.startRun_stepsLeft_v1 hf hver
  have hv1 : s.startRun.stage.runsV1 = true := by rw [State.startRun_of_accepted hf, if_pos hver]; rfl
  have hend := hinv.v1_completes htin hv1
  rw [hsteps] at hend
  exact ⟨fun n hn => hinv.v1_busy n htin hv1 (hn.trans_eq hsteps.symm), hend⟩

end Sys2Proof.Machine
